-- ==== Sys2Proof/Word.lean ====
section
/-!
DEFINITION. The word types of BISKI64-CORE (rule R8: `W` = 64 bits, unsigned) and of its interface signals (rule R61).
-/

namespace Sys2Proof

/-- A 64-bit unsigned word (rule R8). `+` and `*` on it wrap modulo 2^64 (spec/00_scope.md section 4). -/
abbrev Word := BitVec 64

/-- One byte; also the width of a command word (rule R62). -/
abbrev Byte := BitVec 8

/-- The operand bus `cmd_opd[255:0]` (rule R63). -/
abbrev Operands := BitVec 256

end Sys2Proof
end

