-- ==== Sys2Proof/Syntax.lean ====
section
/-!
DEFINITION. The command set of rule R64: one constructor per row of `spec/opcode_table.json`, with the operands rule R67
assembles for it. Operand bits a command does not read (rule R68) are no part of its syntax.
-/

namespace Sys2Proof

/-- The five commands of BISKI64-CORE (rules R60, R64). -/
inductive Instr where
  /-- SEED_U64 (rule R95): construct from a 64-bit seed. -/
  | seedU64 (seed : Word)
  /-- SEED_BYTES (rule R96): construct from a byte seed, first byte first; the bus carries 32 of them (rule R63). -/
  | seedBytes (bytes : List Byte)
  /-- SEED_STREAM (rule R99): construct stream `streamIndex` of `totalStreams`. -/
  | seedStream (seed streamIndex totalStreams : Word)
  /-- NEXT_U64 (rule R116): sample a 64-bit word. -/
  | nextU64
  /-- NEXT_U32 (rule R117): sample a 32-bit word. -/
  | nextU32
deriving DecidableEq, Repr

/-- What a command word spells (rule R69): one of the five operations or ILLEGAL. -/
inductive CommandName where
  | seedU64
  | seedBytes
  | seedStream
  | nextU64
  | nextU32
  /-- The word spells no command (rule R65). -/
  | illegal
deriving DecidableEq, Repr

/-- The operation an instruction belongs to. -/
def Instr.name : Instr → CommandName
  | .seedU64 _ => .seedU64
  | .seedBytes _ => .seedBytes
  | .seedStream _ _ _ => .seedStream
  | .nextU64 => .nextU64
  | .nextU32 => .nextU32

end Sys2Proof
end

