-- ==== Sys2Proof/WellFormed.lean ====
section
/-!
DEFINITION. Which instructions have an encoding. Word operands fit their fields by their type; a byte seed is exactly
32 bytes (rule R70: "exactly 32 bytes, first byte first"; "a wrong operand count ... has no encoding").
-/

namespace Sys2Proof

/-- `SEED_BYTES_LEN` (rule R8). -/
def seedBytesLen : Nat := 32

/-- The well-formedness check: SEED_BYTES carries `seedBytesLen` bytes (rule R70). -/
def Instr.wellFormed : Instr → Bool
  | .seedU64 _ => true
  | .seedBytes bytes => bytes.length == seedBytesLen
  | .seedStream _ _ _ => true
  | .nextU64 => true
  | .nextU32 => true

end Sys2Proof
end

