-- ==== Sys2Proof/Machine/Operands.lean ====
section
/-!
DEFINITION. Operand assembly (rules R63, R67) and the little-endian byte order of the seed and of FILL (rules R42 to R44).
-/

namespace Sys2Proof.Machine

/-- `cmd_opd[63:0]`, the `seed` of SEED_U64 and SEED_STREAM (rule R67). -/
def opdSeed (opd : Operands) : Word := opd.extractLsb' 0 64

/-- `cmd_opd[127:64]`, the `stream_index` of SEED_STREAM (rule R67). -/
def opdStreamIndex (opd : Operands) : Word := opd.extractLsb' 64 64

/-- `cmd_opd[191:128]`, the `total_streams` of SEED_STREAM (rule R67). -/
def opdTotalStreams (opd : Operands) : Word := opd.extractLsb' 128 64

/-- Seed byte `k` on its lanes `cmd_opd[8k+7:8k]` (rule R43). -/
def opdByte (opd : Operands) (k : Nat) : Byte := opd.extractLsb' (8 * k) 8

/-- The 32 bytes of a byte seed, first byte first (rules R43, R67). -/
def opdBytes (opd : Operands) : List Byte := (List.range seedBytesLen).map (opdByte opd)

/-- The number whose little-endian bytes are the list, first byte least significant. -/
def leValue : List Byte → Nat
  | [] => 0
  | b :: bs => b.toNat + 256 * leValue bs

/-- `fromLE8(b0, ..., b7)` of the first eight bytes (spec/00_scope.md section 4, rule R42). A list shorter than eight
bytes, which no decoded command carries, reads as if zero bytes followed (log 16). -/
def fromLE8 (bytes : List Byte) : Word := BitVec.ofNat 64 (leValue (bytes.take 8))

/-- Byte `k` of `LE8(w)`: `w[8k+7:8k]` (spec/00_scope.md section 4). -/
def leByte (w : Word) (k : Nat) : Byte := w.extractLsb' (8 * k) 8

/-- `LE8(w)`, the eight bytes of a word in little-endian order (spec/00_scope.md section 4). -/
def le8 (w : Word) : List Byte := (List.range 8).map (leByte w)

/-- The operand bus that carries a byte seed (rule R43), every other lane 0 (rule R70). -/
def packBytes (bytes : List Byte) : Operands := BitVec.ofNat 256 (leValue bytes)

/-- The operand bus that carries a seed at `[63:0]`, an index at `[127:64]` and a count at `[191:128]` (rule R63), the
rest 0 (rule R70). -/
def packWords (seed streamIndex totalStreams : Word) : Operands :=
  (0#64 ++ totalStreams ++ streamIndex ++ seed : BitVec (64 + 64 + 64 + 64))

end Sys2Proof.Machine
end

