-- ==== Sys2Proof/Decode.lean ====
section
/-!
DEFINITION. Decoding a command word with its operand bus (rules R62, R64, R65, R67, R69), and the encoder (rules R63, R64,
R70).
-/

namespace Sys2Proof

open Sys2Proof.Machine

/-- The field `OP = cmd_word[3:0]` (rule R62). -/
def opField (w : Byte) : BitVec 4 := w.extractLsb' 0 4

/-- The field `RSVD = cmd_word[7:4]` (rule R62). -/
def rsvdField (w : Byte) : BitVec 4 := w.extractLsb' 4 4

/-- The operation an `OP` value selects (rule R64; log 24). -/
def decodeOp (op : BitVec 4) : CommandName :=
  if op = 0x1#4 then .seedU64
  else if op = 0x2#4 then .seedBytes
  else if op = 0x3#4 then .seedStream
  else if op = 0x4#4 then .nextU64
  else if op = 0x5#4 then .nextU32
  else .illegal

/-- `decode(w)` of rule R69: every one of the 256 words names one of the five commands or ILLEGAL. -/
def decodeWord (w : Byte) : CommandName :=
  if rsvdField w ≠ 0#4 then .illegal else decodeOp (opField w)

/-- The command an operation and an operand bus make (rule R67); ILLEGAL makes none. -/
def assembleOperands (name : CommandName) (opd : Operands) : Option Instr :=
  match name with
  | .seedU64 => some (.seedU64 (opdSeed opd))
  | .seedBytes => some (.seedBytes (opdBytes opd))
  | .seedStream => some (.seedStream (opdSeed opd) (opdStreamIndex opd) (opdTotalStreams opd))
  | .nextU64 => some .nextU64
  | .nextU32 => some .nextU32
  | .illegal => none

/-- The decoder: the command `cmd_word` and `cmd_opd` spell, `none` for ILLEGAL (rules R67, R69). -/
def decode (w : Byte) (opd : Operands) : Option Instr := assembleOperands (decodeWord w) opd

/-- The command word of an operation (rule R64). ILLEGAL is encoded by no command; its value is one of its words. -/
def encodeName : CommandName → Byte
  | .seedU64 => 0x01#8
  | .seedBytes => 0x02#8
  | .seedStream => 0x03#8
  | .nextU64 => 0x04#8
  | .nextU32 => 0x05#8
  | .illegal => 0x00#8

/-- The command word of an instruction (rule R64). -/
def encodeWord (i : Instr) : Byte := encodeName i.name

/-- The operand bus of an instruction, every bit the command ignores 0 (rules R63, R70). -/
def encodeOperands : Instr → Operands
  | .seedU64 seed => packWords seed 0 0
  | .seedBytes bytes => packBytes bytes
  | .seedStream seed streamIndex totalStreams => packWords seed streamIndex totalStreams
  | .nextU64 => 0
  | .nextU32 => 0

/-- The encoder: (`cmd_word`, `cmd_opd`) (rule R70). -/
def encode (i : Instr) : Byte × Operands := (encodeWord i, encodeOperands i)

/-- The first `nbits` bits of `w` as a command: `cmd_word` in bits 7..0, `cmd_opd` in the bits above (log 17). -/
def tableWord (nbits w : Nat) : Byte := BitVec.ofNat 8 (w % 2 ^ nbits)

/-- The operand bus of the first `nbits` bits of `w`; the bits above `nbits` are 0 (log 17). -/
def tableOperands (nbits w : Nat) : Operands := BitVec.ofNat 256 (w % 2 ^ nbits / 256)

/-- The instruction the decoder reads from the table's bits (log 17). -/
def decodeTableWord (nbits w : Nat) : Option Instr := decode (tableWord nbits w) (tableOperands nbits w)

end Sys2Proof
end

