-- ==== Sys2Proof/Config.lean ====
section
/-!
DEFINITION. The design parameters of rule R8 as a configuration structure. This hardware's values are `Machine.config`
in `Machine/Parameters.lean`. The OPEN parameters `LAT_SEED`, `LAT_NEXT` stand in `State` (log 2), `N_INSTANCES` is the
number of units of a `Machine.Platform`, at least one (log 21).
-/

namespace Sys2Proof

/-- The Generator State of `VARIANT = V3` (log 20): the ordered triple of rule R21 (`N_STATE` = 3). -/
@[ext]
structure Generator where
  /-- `FAST_LOOP`, the fast-loop counter (rule R22). -/
  fastLoop : Word
  /-- `MIX`, the first mixing word (rule R23). -/
  mix : Word
  /-- `LOOP_MIX`, the second mixing word (rule R23). -/
  loopMix : Word
deriving DecidableEq, Repr

/-- The names of the three state words, as the entries of `DRAW_ORDER` (rule R8). -/
inductive StateWord where
  | fastLoop
  | mix
  | loopMix
deriving DecidableEq, Repr

/-- `CPS_FORMULA` (I15, conflict C1): how `cycles_per_stream` is computed in wide arithmetic. -/
inductive CpsFormula where
  /-- `floor((2^64 - 1) / N)`, the value of this hardware (rule R98). -/
  | minus1
  /-- `floor(2^64 / N)`, the recorded alternative. -/
  | pow2
deriving DecidableEq, Repr

/-- Where SEED_STREAM adds its offset (I10, conflict C4). -/
inductive OffsetOrder where
  /-- Offset, then warm-up: the value of this hardware (rule R99). -/
  | beforeWarmup
  /-- Warm-up, then offset: the rejected reading, under which every stream starts with one word (rule R102). -/
  | afterWarmup
deriving DecidableEq, Repr

/-- The parameters of rule R8 and of I1, I3 to I5, I10, I15, I24. -/
structure Config where
  /-- The step equations (`VARIANT`; I1, D2), from `FL_INC`, `ROT_A`, `ROT_B` and a Generator State: (output word, state
  after). The default is rule R110. -/
  stepFn : (flInc : Word) → (rotA rotB : Nat) → Generator → Word × Generator
  /-- `FL_INC` (I3). -/
  flInc : Word
  /-- `ROT_A` (I4). -/
  rotA : Nat
  /-- `ROT_B` (I4). -/
  rotB : Nat
  /-- `SM_GAMMA`. -/
  smGamma : Word
  /-- `SM_M1`. -/
  smM1 : Word
  /-- `SM_M2`. -/
  smM2 : Word
  /-- `SM_S1`. -/
  smS1 : Nat
  /-- `SM_S2`. -/
  smS2 : Nat
  /-- `SM_S3`. -/
  smS3 : Nat
  /-- `WARMUP_STEPS`. -/
  warmupSteps : Nat
  /-- `STREAM_MUL`. -/
  streamMul : Word
  /-- `DRAW_ORDER` (I5). -/
  drawOrder : List StateWord
  /-- `CPS(N)` (I15). -/
  cpsFormula : CpsFormula
  /-- The order of offset and warm-up (I10). -/
  offsetOrder : OffsetOrder
  /-- `rsp_data` of a response that carries no word (I24, rule R66). -/
  noWordData : Word

end Sys2Proof
end

