-- ==== Sys2Proof/Machine/Parameters.lean ====
section
/-!
DEFINITION. The core state-transition function (rules R110, R113) and this hardware's parameter values (rule R8).
-/

namespace Sys2Proof.Machine

/-- `rotl64(a, k)` for `0 ≤ k < 64` (spec/00_scope.md section 4). -/
def rotl64 (a : Word) (k : Nat) : Word := (a <<< k) ||| (a >>> (64 - k))

/-- `step()` of rule R110 with its three parameters: the output word and the Generator State after. -/
def stepV3 (flInc : Word) (rotA rotB : Nat) (g : Generator) : Word × Generator :=
  (g.mix + g.loopMix,
    { loopMix := g.fastLoop ^^^ g.mix
      mix := rotl64 g.mix rotA + rotl64 g.loopMix rotB
      fastLoop := g.fastLoop + flInc })

/-- The inverse of the step (rule R113): the Generator State before, from the one after. -/
def unstepV3 (flInc : Word) (rotA rotB : Nat) (g : Generator) : Generator :=
  { fastLoop := g.fastLoop - flInc
    mix := g.loopMix ^^^ (g.fastLoop - flInc)
    loopMix := rotl64 (g.mix - rotl64 (g.loopMix ^^^ (g.fastLoop - flInc)) rotA) (64 - rotB) }

/-- `step()` of a configuration: its step equations with its `FL_INC`, `ROT_A` and `ROT_B` (rules R8, R110). -/
def coreStep (c : Config) (g : Generator) : Word × Generator := c.stepFn c.flInc c.rotA c.rotB g

/-- The parameter values of this hardware (rule R8; I1, I3 to I5, I10, I15, I24; log 8, log 9, log 11, log 12). -/
def config : Config where
  stepFn := stepV3
  flInc := 0x9999999999999999
  rotA := 16
  rotB := 40
  smGamma := 0x9e3779b97f4a7c15
  smM1 := 0xbf58476d1ce4e5b9
  smM2 := 0x94d049bb133111eb
  smS1 := 30
  smS2 := 27
  smS3 := 31
  warmupSteps := 16
  streamMul := 0x9999999999999999
  drawOrder := [.mix, .loopMix, .fastLoop]
  cpsFormula := .minus1
  offsetOrder := .beforeWarmup
  noWordData := 0

end Sys2Proof.Machine
end

