-- ==== Sys2Proof/Machine/Expander.lean ====
section
/-!
DEFINITION. The Seed Expander (rules R80, R81) and `draw_state` (rule R90).
-/

namespace Sys2Proof.Machine

/-- `v ^ (v >> k)`. -/
def xorShiftRight (v : Word) (k : Nat) : Word := v ^^^ (v >>> k)

/-- The output function `fin(z)` of rules R81 and R82. -/
def expanderFin (c : Config) (z : Word) : Word :=
  xorShiftRight (xorShiftRight (xorShiftRight z c.smS1 * c.smM1) c.smS2 * c.smM2) c.smS3

/-- `sm_next()` of rule R81 on an accumulator value: the word it returns and the accumulator after. -/
def smNext (c : Config) (acc : Word) : Word × Word := (expanderFin c (acc + c.smGamma), acc + c.smGamma)

/-- Writing one named state word. -/
def setStateWord (g : Generator) (w : StateWord) (v : Word) : Generator :=
  match w with
  | .fastLoop => { g with fastLoop := v }
  | .mix => { g with mix := v }
  | .loopMix => { g with loopMix := v }

/-- All three state words are zero, the state rule R91 forbids construction to leave. -/
def allZero (g : Generator) : Bool := g.fastLoop == 0 && g.mix == 0 && g.loopMix == 0

/-- What drawing leaves: the three drawn words and the accumulator. -/
structure Drawn where
  gen : Generator
  smAcc : Word
deriving DecidableEq, Repr

/-- One draw per named word, in the order of the list. -/
def drawWords (c : Config) : List StateWord → Drawn → Drawn
  | [], d => d
  | w :: ws, d => drawWords c ws { gen := setStateWord d.gen w (smNext c d.smAcc).1, smAcc := (smNext c d.smAcc).2 }

/-- One pass of `draw_state`'s loop body: a draw for every state word in `DRAW_ORDER` (rule R90). -/
def drawPass (c : Config) (acc : Word) : Drawn :=
  drawWords c c.drawOrder { gen := { fastLoop := 0, mix := 0, loopMix := 0 }, smAcc := acc }

/-- The loop of `draw_state` (rule R90), with at most `redraws` further passes after the first: a pass whose words are all
zero is discarded and the next continues from the accumulator it left. By rule R92 no pass is ever discarded (log 10). -/
def drawLoop (c : Config) : (redraws : Nat) → (acc : Word) → Drawn
  | 0, acc => drawPass c acc
  | n + 1, acc => if allZero (drawPass c acc).gen then drawLoop c n (drawPass c acc).smAcc else drawPass c acc

/-- The bound on the redraws of `drawState`, never reached (rule R92; log 10). -/
def redrawBound : Nat := 2

/-- `draw_state(seed)` of rule R90: the accumulator starts at the seed (rule R80). -/
def drawState (c : Config) (seed : Word) : Drawn := drawLoop c redrawBound seed

end Sys2Proof.Machine
end

