-- ==== Sys2Proof/Machine/State.lean ====
section
/-!
DEFINITION. The state of BISKI64-CORE as plain data: the architectural registers of rule R20, the interface state of
rules R30, R33, R61 and R163, the input levels the host will drive, and the OPEN latencies of rule R8.
-/

namespace Sys2Proof.Machine

/-- A response `(rsp_status, rsp_data)` (rule R66). -/
structure Response where
  /-- `rsp_status`, a code of rule R130. -/
  status : BitVec 3
  /-- `rsp_data`. -/
  data : Word
deriving DecidableEq, Repr

/-- The controller (rules R33, R61). A command's response is computed when it is accepted (rule R48, log 1) and held here
until the host takes it. -/
inductive Controller where
  /-- No command in progress: `cmd_ready = 1`. -/
  | idle
  /-- A command was accepted; its response is presented after `cyclesLeft` further edges (one, if 0). -/
  | busy (cyclesLeft : Nat) (response : Response)
  /-- The response is presented: `rsp_valid = 1`. -/
  | responding (response : Response)
deriving DecidableEq, Repr

/-- The levels of the input signals of rule R61 at one rising edge of `clk`. -/
structure Pins where
  /-- `rst`. -/
  rst : Bool
  /-- `cmd_valid`. -/
  cmdValid : Bool
  /-- `cmd_word`. -/
  cmdWord : Byte
  /-- `cmd_opd`. -/
  cmdOpd : Operands
  /-- `rsp_ready`. -/
  rspReady : Bool
deriving DecidableEq, Repr

/-- Why the machine stops. The errors of rule R130 are not among them: they are state (rule R133). -/
inductive Fault where
  /-- Raised by `step` at a rising edge with `rst = 0` before the first reset after power-on, where "every register, flag
  and output of the block is unspecified" (rule R152, I14; log 5). Safe. -/
  | beforeFirstReset
deriving DecidableEq, Repr

/-- Why an instruction has no meaning. -/
inductive Refusal where
  /-- Raised by an arm of `exec` for an instruction without a meaning; no arm raises it. Safe. -/
  | notModelled (mnemonic : String)
deriving DecidableEq, Repr

/-- The state of one BISKI64-CORE. -/
@[ext]
structure State where
  /-- The Generator State: `FAST_LOOP`, `MIX`, `LOOP_MIX` (rules R20 to R25). -/
  gen : Generator
  /-- `SM_ACC` (rules R20, R26). -/
  smAcc : Word
  /-- `SEEDED` (rule R27). -/
  seeded : Bool
  /-- `FAULT` (rule R28). -/
  fault : Bool
  /-- `ERRCODE` (rule R28). -/
  errcode : BitVec 3
  /-- The controller and the response it holds (rules R33, R61). -/
  ctrl : Controller
  /-- The level of the status port `status[7:0]` (rules R30, R163). -/
  statusPort : Byte
  /-- The input levels at the coming rising edges, nearest first (the host's; log 6). -/
  inputs : List Pins
  /-- `LAT_SEED`, an OPEN parameter (rule R8; log 2). -/
  latSeed : Nat
  /-- `LAT_NEXT`, an OPEN parameter (rule R8; log 2). -/
  latNext : Nat
  /-- Cycles to the response of a word that spells no command (log 3). -/
  latIllegal : Nat
  /-- The block has been reset since power-on (rule R152; log 5). -/
  wasReset : Bool
deriving DecidableEq, Repr

/-- The block right after reset (rule R150). The four data registers, to which the spec gives no value, hold 0 (log 4);
the latencies are 1 (log 2, log 3); the host has put nothing on the inputs yet (log 6). -/
def State.reset : State where
  gen := { fastLoop := 0, mix := 0, loopMix := 0 }
  smAcc := 0
  seeded := false
  fault := false
  errcode := 0
  ctrl := .idle
  statusPort := 0
  inputs := []
  latSeed := 1
  latNext := 1
  latIllegal := 1
  wasReset := true

end Sys2Proof.Machine
end

