-- ==== Sys2Proof/Machine/Flags.lean ====
section
/-!
DEFINITION. Status codes (rule R130), the status byte (rule R30), the operating modes (rule R29) and the output signals
(rules R30, R61).
-/

namespace Sys2Proof.Machine

/-- The status codes of rule R130. -/
inductive StatusCode where
  | ok
  | invalidStreamCount
  | invalidStreamIndex
  | notSeeded
  | illegalCommand
  | faulted
deriving DecidableEq, Repr

/-- The 3-bit value of a status code (rule R130; log 24). -/
def statusBits : StatusCode → BitVec 3
  | .ok => 0
  | .invalidStreamCount => 1
  | .invalidStreamIndex => 2
  | .notSeeded => 3
  | .illegalCommand => 4
  | .faulted => 5

/-- The status byte of given flags: `{000, ERRCODE, FAULT, SEEDED}` (rule R30). -/
def statusByte (seeded fault : Bool) (errcode : BitVec 3) : Byte :=
  (0#3 ++ errcode ++ BitVec.ofBool fault ++ BitVec.ofBool seeded : BitVec (3 + 3 + 1 + 1))

/-- The status byte of the present flags (rule R30). -/
def State.flagsByte (s : State) : Byte := statusByte s.seeded s.fault s.errcode

/-- The operating modes of rule R29. -/
inductive Mode where
  | unseeded
  | ready
  | faulted
deriving DecidableEq, Repr

/-- The operating mode, read off the flags (rule R29). -/
def State.mode (s : State) : Mode :=
  if s.fault then .faulted else if s.seeded then .ready else .unseeded

/-- The input levels at the coming rising edge when the host has put nothing on the inputs: all low (log 6). -/
def Pins.quiet : Pins := { rst := false, cmdValid := false, cmdWord := 0, cmdOpd := 0, rspReady := false }

/-- The input levels at the coming rising edge. -/
def State.pins (s : State) : Pins := s.inputs.headD Pins.quiet

/-- The output `cmd_ready`: the controller is idle and reset is not asserted (rules R61, R150; log 14). -/
def State.cmdReady (s : State) : Bool := s.ctrl == .idle && !s.pins.rst

/-- The response outputs: `some (rsp_status, rsp_data)` when `rsp_valid = 1`, `none` when it is 0 and they carry nothing
(rule R61; log 13). -/
def State.rspPort (s : State) : Option Response :=
  match s.ctrl with
  | .idle => none
  | .busy _ _ => none
  | .responding r => some r

/-- The output `rsp_valid` (rule R61). -/
def State.rspValid (s : State) : Bool := s.rspPort.isSome

end Sys2Proof.Machine
end

