-- ==== Sys2Proof/Machine/Ops.lean ====
section
/-!
DEFINITION. The shared operations of the commands: responding (rule R66), fault entry (rule R133), the Faulted answer (rule
R134), completing a construction (rule R94), stepping and warming up (rules R93, R110), reset (rule R150), and the edges on which a
response is presented and taken (rule R61).
-/

namespace Sys2Proof.Machine

/-- `respond(status, data)`: ends the command; the response is presented `latency` cycles after acceptance (rule R61), and
until it is taken no other command is accepted. -/
def respond (latency : Nat) (code : StatusCode) (data : Word) (s : State) : State :=
  { s with ctrl := .busy latency { status := statusBits code, data := data } }

/-- Fault entry, `raise Fault(code)` of rule R133: `FAULT <- 1; ERRCODE <- code; respond(code, 0)`, nothing else. -/
def raiseFault (latency : Nat) (code : StatusCode) (s : State) : State :=
  respond latency code config.noWordData { s with fault := true, errcode := statusBits code }

/-- The rule every command starts with (rule R134): with `FAULT = 1` it does `respond(Faulted, 0)` and changes nothing;
otherwise it does `body`. -/
def unlessFaulted (latency : Nat) (body : State → State) (s : State) : State :=
  if s.fault then respond latency .faulted config.noWordData s else body s

/-- Completion of a construction command (rule R94), with the state words and the accumulator it leaves. -/
def finishConstruction (gen : Generator) (smAcc : Word) (s : State) : State :=
  respond s.latSeed .ok config.noWordData { s with gen := gen, smAcc := smAcc, seeded := true }

/-- Completion of a sampling command (rules R116, R117), with the state words it leaves and the data it returns. -/
def finishSample (gen : Generator) (data : Word) (s : State) : State :=
  respond s.latNext .ok data { s with gen := gen }

/-- `n` steps whose output words are discarded. -/
def advance (c : Config) : Nat → Generator → Generator
  | 0, g => g
  | n + 1, g => advance c n (coreStep c g).2

/-- `warmup()` of rule R93. -/
def warmup (c : Config) (g : Generator) : Generator := advance c c.warmupSteps g

/-- Taking reset at a rising edge (rule R150): the block is as after any reset, a command in progress is abandoned without a
response (rule R138), and what is not the block's (the coming inputs, the parameters) stays. The four data registers, which
reset leaves unspecified, take the values they have in `State.reset` (log 4, log 23). -/
def State.takeReset (s : State) : State :=
  { State.reset with inputs := s.inputs, latSeed := s.latSeed, latNext := s.latNext, latIllegal := s.latIllegal }

/-- The response is presented: `rsp_valid` rises and the status port shows the flags as the command left them (rules R61,
R163). -/
def State.present (r : Response) (s : State) : State :=
  { s with ctrl := .responding r, statusPort := s.flagsByte }

/-- An edge on which the response is not yet presented: `cyclesLeft` cycles remain (rule R61). -/
def State.wait (cyclesLeft : Nat) (r : Response) (s : State) : State := { s with ctrl := .busy cyclesLeft r }

/-- The response is taken: `rsp_valid` falls and `cmd_ready` returns to 1 (rule R61). -/
def State.release (s : State) : State := { s with ctrl := .idle }

/-- The inputs move on to the next rising edge. -/
def State.nextInputs (s : State) : State := { s with inputs := s.inputs.tail }

/-- The block as it is after power-on, before its first reset: its registers, flags and outputs are those of `s`, which may
be any state (rule R152; log 5). -/
def State.powerOn (s : State) : State := { s with wasReset := false }

end Sys2Proof.Machine
end

