-- ==== Sys2Proof/Machine/Construction.lean ====
section
/-!
DEFINITION. The construction commands SEED_U64, SEED_BYTES and SEED_STREAM (spec/41_construction.md).
-/

namespace Sys2Proof.Machine

/-- `CPS(N)` in wide arithmetic (rule R98; conflict C1, I15). -/
def cyclesPerStream (c : Config) (totalStreams : Nat) : Nat :=
  match c.cpsFormula with
  | .minus1 => (2 ^ 64 - 1) / totalStreams
  | .pow2 => 2 ^ 64 / totalStreams

/-- `offset(i, N)` (rule R98): the product in wide arithmetic, reduced modulo 2^64. -/
def streamOffset (c : Config) (streamIndex totalStreams : Word) : Word :=
  BitVec.ofNat 64 (streamIndex.toNat * cyclesPerStream c totalStreams.toNat * c.streamMul.toNat)

/-- The offset added to `FAST_LOOP` only (rules R22, R99). -/
def offsetFastLoop (off : Word) (g : Generator) : Generator := { g with fastLoop := g.fastLoop + off }

/-- Offset and warm-up of SEED_STREAM in the configured order (rule R99; I10). -/
def placeStream (c : Config) (off : Word) (g : Generator) : Generator :=
  match c.offsetOrder with
  | .beforeWarmup => warmup c (offsetFastLoop off g)
  | .afterWarmup => offsetFastLoop off (warmup c g)

/-- Construction from an integer seed: `draw_state`, `warmup`, completion (rules R90, R93, R94). -/
def constructFromSeed (seed : Word) (s : State) : State :=
  finishConstruction (warmup config (drawState config seed).gen) (drawState config seed).smAcc s

/-- Construction of one stream: `draw_state`, offset, `warmup`, completion (rules R90, R98, R93, R94). -/
def constructStream (seed streamIndex totalStreams : Word) (s : State) : State :=
  finishConstruction
    (placeStream config (streamOffset config streamIndex totalStreams) (drawState config seed).gen)
    (drawState config seed).smAcc s

/-- The checks of SEED_STREAM in their order, then the construction (rules R99, R100, R135, R136). -/
def constructCheckedStream (seed streamIndex totalStreams : Word) (s : State) : State :=
  if totalStreams = 0 then raiseFault s.latSeed .invalidStreamCount s
  else if streamIndex.toNat ≥ totalStreams.toNat then raiseFault s.latSeed .invalidStreamIndex s
  else constructStream seed streamIndex totalStreams s

/-- SEED_U64 (rule R95). -/
def execSeedU64 (seed : Word) (s : State) : Host.Outcome State Fault Refusal :=
  .next (unlessFaulted s.latSeed (constructFromSeed seed) s)

/-- SEED_BYTES (rule R96): the integer seed is the little-endian value of the first eight bytes. -/
def execSeedBytes (bytes : List Byte) (s : State) : Host.Outcome State Fault Refusal :=
  .next (unlessFaulted s.latSeed (constructFromSeed (fromLE8 bytes)) s)

/-- SEED_STREAM (rule R99). -/
def execSeedStream (seed streamIndex totalStreams : Word) (s : State) : Host.Outcome State Fault Refusal :=
  .next (unlessFaulted s.latSeed (constructCheckedStream seed streamIndex totalStreams) s)

end Sys2Proof.Machine
end

