-- ==== Sys2Proof/Machine/Sampling.lean ====
section
/-!
DEFINITION. The sampling commands NEXT_U64 and NEXT_U32 (spec/42_sampling.md).
-/

namespace Sys2Proof.Machine

/-- `zext_64(w[63:32])`, the response data of NEXT_U32 (rules R66, R117). -/
def highHalf (w : Word) : Word := (w.extractLsb' 32 32).setWidth 64

/-- Sampling (rules R116, R117): NotSeeded when `SEEDED = 0`; otherwise one step, and `respond(OK, view(w))` of the word it
returns. -/
def sample (view : Word → Word) (s : State) : State :=
  if s.seeded then finishSample (coreStep config s.gen).2 (view (coreStep config s.gen).1) s
  else raiseFault s.latNext .notSeeded s

/-- NEXT_U64 (rule R116). -/
def execNextU64 (s : State) : Host.Outcome State Fault Refusal :=
  .next (unlessFaulted s.latNext (sample id) s)

/-- NEXT_U32 (rule R117). -/
def execNextU32 (s : State) : Host.Outcome State Fault Refusal :=
  .next (unlessFaulted s.latNext (sample highHalf) s)

end Sys2Proof.Machine
end

