-- ==== Sys2Proof/Machine/Dispatch.lean ====
section
/-! DEFINITION. The meaning of every command of rule R64, one arm each. -/

namespace Sys2Proof.Machine

/-- What an accepted command does to the block: its state after, with the response it gives held by the controller. -/
def exec (i : Instr) (s : State) : Host.Outcome State Fault Refusal :=
  match i with
  | .seedU64 seed => Sys2Proof.Machine.execSeedU64 seed s
  | .seedBytes bytes => Sys2Proof.Machine.execSeedBytes bytes s
  | .seedStream seed streamIndex totalStreams => Sys2Proof.Machine.execSeedStream seed streamIndex totalStreams s
  | .nextU64 => Sys2Proof.Machine.execNextU64 s
  | .nextU32 => Sys2Proof.Machine.execNextU32 s

end Sys2Proof.Machine
end

