-- ==== Sys2Proof/Machine/Clock.lean ====
section
/-!
DEFINITION. One rising edge of `clk` (rules R61, R138, R148, R150, R163), and accepting a command word (rules R65, R69,
R137).
-/

namespace Sys2Proof.Machine

/-- A word that spells no command, accepted (rules R65, R132): Faulted if `FAULT = 1`, otherwise IllegalCommand. -/
def takeIllegal (s : State) : State :=
  unlessFaulted s.latIllegal (raiseFault s.latIllegal .illegalCommand) s

/-- Accepting a command (rule R61): the word and operands present at the edge are decoded and the command is run. -/
def accept (w : Byte) (opd : Operands) (s : State) : Host.Outcome State Fault Refusal :=
  match decode w opd with
  | some i => exec i s
  | none => .next (takeIllegal s)

/-- An edge without reset, on the levels `p` (rules R61, R148; log 22). -/
def runEdge (p : Pins) (s : State) : Host.Outcome State Fault Refusal :=
  match s.ctrl with
  | .idle => if p.cmdValid then accept p.cmdWord p.cmdOpd s else .next s
  | .busy n r => .next (if n ≤ 1 then s.present r else s.wait (n - 1) r)
  | .responding _ => .next (if p.rspReady then s.release else s)

/-- One rising edge of `clk`: reset wins (rules R138, R150); before the first reset nothing else is specified (rule R152;
log 5). -/
def clockEdge (s : State) : Host.Outcome State Fault Refusal :=
  if s.pins.rst then .next s.nextInputs.takeReset
  else if s.wasReset then runEdge s.pins s.nextInputs
  else .fault .beforeFirstReset

/-- The levels with which the host offers a command (rule R61). -/
def offerPins (w : Byte) (opd : Operands) : Pins :=
  { rst := false, cmdValid := true, cmdWord := w, cmdOpd := opd, rspReady := false }

/-- A command in progress, if there is one, has completed: its response was presented and taken (rule R61). -/
def State.settle (s : State) : State :=
  match s.ctrl with
  | .idle => s
  | .busy _ r => (s.present r).release
  | .responding _ => s.release

/-- The state with a command offered at the very next edge, where the block is ready to accept it: it has been reset, any
earlier command has completed, and the host's other inputs come after (log 7). -/
def State.withOffer (s : State) (w : Byte) (opd : Operands) : State :=
  { s.settle with wasReset := true, inputs := offerPins w opd :: s.inputs }

end Sys2Proof.Machine
end

