-- ==== Sys2Proof/Machine/Step.lean ====
section
/-! DEFINITION. One step of the machine: one rising edge of `clk`. -/

namespace Sys2Proof.Machine

/-- One step: the rising edge of `clk` on the input levels at the head of `inputs`. -/
def step (s : State) : Host.Outcome State Fault Refusal := clockEdge s

/-- `s` with the command of the table's bits offered at the very next edge (log 7, log 17). -/
def State.withFetchWord (s : State) (nbits w : Nat) : State :=
  s.withOffer (tableWord nbits w) (tableOperands nbits w)

end Sys2Proof.Machine
end

