-- ==== Sys2Proof/Machine/HostSide.lean ====
section
/-!
DEFINITION. The host's side of the command channel: whole transactions (rules R50, R61), the input levels that make them, FILL (rule
R118) and the pseudo-commands of rule R71.
-/

namespace Sys2Proof.Machine

/-- The block can start a transaction: it has been reset since power-on (rule R152) and no command is in progress (rule R61). -/
def State.canTransact (s : State) : Bool := s.wasReset && s.ctrl == .idle

/-- One whole transaction (rule R61): the command is accepted and its response presented and taken. It is `none`, the model's
choice (log 5, log 26), on a block not reset since power-on, which rule R152 leaves unspecified and where the accepting edge faults,
and while another command is in progress. -/
def transact (w : Byte) (opd : Operands) (s : State) : Option (State × Response) :=
  if s.canTransact then
    match accept w opd s with
    | .next t =>
      match t.ctrl with
      | .busy _ r => some ((t.present r).release, r)
      | .idle => none
      | .responding _ => none
    | .fault _ => none
    | .refused _ => none
  else none

/-- What a host does to the block: assert reset, or send one command word with its operand bus. -/
inductive HostAction where
  | reset
  | send (w : Byte) (opd : Operands)
deriving DecidableEq, Repr

/-- Sending a command (rule R70). -/
def sendInstr (i : Instr) : HostAction := .send (encodeWord i) (encodeOperands i)

/-- The state after a sequence of host actions, and the responses in order (rule R50); reset has none (rule R138). It is `none`
where a command is sent that cannot be transacted, as before the first reset (log 5, log 26). -/
def hostRun : List HostAction → State → Option (State × List Response)
  | [], s => some (s, [])
  | .reset :: as, s => hostRun as s.takeReset
  | .send w opd :: as, s =>
    match transact w opd s with
    | none => none
    | some (t, r) =>
      match hostRun as t with
      | none => none
      | some (u, rs) => some (u, r :: rs)

/-- The cycles from acceptance to response that a command word takes in `s` (rules R8, R61; log 2, log 3). -/
def latencyOf (w : Byte) (s : State) : Nat :=
  match decodeWord w with
  | .seedU64 => s.latSeed
  | .seedBytes => s.latSeed
  | .seedStream => s.latSeed
  | .nextU64 => s.latNext
  | .nextU32 => s.latNext
  | .illegal => s.latIllegal

/-- Reset asserted for one edge. -/
def resetPins : Pins := { Pins.quiet with rst := true }

/-- The host takes a response. -/
def takePins : Pins := { Pins.quiet with rspReady := true }

/-- The input levels, edge by edge, with which a host performs an action on an idle block: it offers the command, waits until
the response is presented, and takes it (rule R61). -/
def actionPins (a : HostAction) (s : State) : List Pins :=
  match a with
  | .reset => [resetPins]
  | .send w opd => offerPins w opd :: (List.replicate (max 1 (latencyOf w s)) Pins.quiet ++ [takePins])

/-- The response taken at the coming edge, if one is (rule R61): `rsp_valid` and `rsp_ready` are 1 and reset does not win
(log 25). -/
def takenResponse (s : State) : Option Response :=
  if s.pins.rst then none else if s.pins.rspReady then s.rspPort else none

/-- `n` edges, with the responses taken at them in order. -/
def observeEdges : Nat → State → Option (State × List Response)
  | 0, s => some (s, [])
  | n + 1, s =>
    match step s with
    | .next t =>
      match observeEdges n t with
      | none => none
      | some (u, rs) => some (u, (takenResponse s).toList ++ rs)
    | .fault _ => none
    | .refused _ => none

/-- The bytes of word `j` that belong to a buffer of `n` bytes: `w[8k+7:8k]` for the `k` with `8j + k < n` (rule R118). -/
def fillChunk (n j : Nat) (w : Word) : List Byte :=
  ((List.range 8).filter fun k => decide (8 * j + k < n)).map (leByte w)

/-- The loop of FILL (rule R118) from word `j` on, `chunks` words left, `buffer` the bytes written so far; it stops at a
status that is not OK. -/
def fillLoop (n : Nat) : (chunks j : Nat) → (buffer : List Byte) → State → Option (State × List Byte)
  | 0, _, buffer, s => some (s, buffer)
  | c + 1, j, buffer, s =>
    match transact (encodeWord .nextU64) (encodeOperands .nextU64) s with
    | none => none
    | some (t, r) =>
      if r.status = statusBits .ok then fillLoop n c (j + 1) (buffer ++ fillChunk n j r.data) t
      else some (t, buffer)

/-- `ceil(n / 8)`. -/
def fillCommands (n : Nat) : Nat := (n + 7) / 8

/-- FILL(n) (rule R118): the state after, and the bytes of the host's buffer in order. It is `none` where it sends a command that
cannot be transacted, as before the first reset (log 5, log 26). -/
def hostFill (n : Nat) (s : State) : Option (State × List Byte) := fillLoop n (fillCommands n) 0 [] s

/-- A line of a host program: a command, or a pseudo-command of rule R71. -/
inductive HostLine where
  | command (i : Instr)
  | reset
  | fill (n : Nat)
  | discard (k : Nat)
deriving DecidableEq, Repr

/-- The host actions a line stands for (rule R71). -/
def HostLine.expand : HostLine → List HostAction
  | .command i => [sendInstr i]
  | .reset => [.reset]
  | .fill n => List.replicate (fillCommands n) (sendInstr .nextU64)
  | .discard k => List.replicate k (sendInstr .nextU64)

end Sys2Proof.Machine
end

