-- ==== Sys2Proof/Machine/Assembler.lean ====
section
/-!
DEFINITION. The command text of rule R70 and the pseudo-commands of rule R71: what a line of text assembles to. A line is its list of
characters.
-/

namespace Sys2Proof.Machine

/-- What assembling a line gives. -/
inductive LineResult where
  /-- Nothing but white space and a comment. -/
  | blank
  | line (l : HostLine)
  /-- "An operand that does not fit, or a wrong operand count, is refused by the assembler; it has no encoding" (rule R70). -/
  | refused
deriving DecidableEq, Repr

/-- White space inside a line (log 19). -/
def isSpace (c : Char) : Bool := c == ' ' || c == '\t'

/-- A line without white space at its ends. -/
def trimLine (cs : List Char) : List Char := ((cs.dropWhile isSpace).reverse.dropWhile isSpace).reverse

/-- The text before the comment that `;` starts (rule R70). -/
def stripComment (cs : List Char) : List Char := cs.takeWhile fun c => c != ';'

/-- The comma-separated fields of a text, white space at their ends dropped. -/
def splitFields : List Char → List (List Char)
  | [] => [[]]
  | c :: cs =>
    match splitFields cs with
    | [] => [[c]]
    | f :: fs => if c == ',' then [] :: f :: fs else (c :: f) :: fs

/-- The operands of a line's text after the mnemonic; no text is no operand. -/
def operandFields (cs : List Char) : List (List Char) :=
  if (trimLine cs).isEmpty then [] else (splitFields cs).map trimLine

/-- The value of a digit; a letter stands for ten to fifteen in either case (log 19). -/
def digitValue (c : Char) : Nat :=
  if c.toNat < 48 then 16
  else if c.toNat ≤ 57 then c.toNat - 48
  else if c.toNat < 65 then 16
  else if c.toNat ≤ 70 then c.toNat - 55
  else if c.toNat < 97 then 16
  else if c.toNat ≤ 102 then c.toNat - 87
  else 16

/-- The number a text of digits writes, after the digits read so far; `none` if a character is no digit of the base. -/
def readDigits (base : Nat) : List Char → Nat → Option Nat
  | [], value => some value
  | c :: cs, value =>
    if digitValue c < base then readDigits base cs (value * base + digitValue c) else none

/-- A number, decimal or `0x` hexadecimal, unsigned (rule R70). -/
def readNumber : List Char → Option Nat
  | [] => none
  | '0' :: 'x' :: [] => none
  | '0' :: 'x' :: c :: cs => readDigits 16 (c :: cs) 0
  | c :: cs => readDigits 10 (c :: cs) 0

/-- The numbers of a list of fields. -/
def readNumbers : List (List Char) → Option (List Nat)
  | [] => some []
  | f :: fs =>
    match readNumber f, readNumbers fs with
    | some n, some ns => some (n :: ns)
    | _, _ => none

/-- A 64-bit operand, which "must fit" (rule R70). -/
def fitsWord (n : Nat) : Bool := decide (n < 2 ^ 64)

/-- A seed byte, which must fit 8 bits (rule R70). -/
def fitsByte (n : Nat) : Bool := decide (n < 2 ^ 8)

/-- The line a mnemonic and its operands make (rules R70, R71); `none` for an unknown mnemonic, a wrong operand count or an
operand that does not fit. -/
def buildLine (mnemonic : List Char) (operands : List Nat) : Option HostLine :=
  if mnemonic = "SEED_U64".toList then
    match operands with
    | [seed] => if fitsWord seed then some (.command (.seedU64 (BitVec.ofNat 64 seed))) else none
    | _ => none
  else if mnemonic = "SEED_BYTES".toList then
    if operands.length == seedBytesLen && operands.all fitsByte then
      some (.command (.seedBytes (operands.map (BitVec.ofNat 8))))
    else none
  else if mnemonic = "SEED_STREAM".toList then
    match operands with
    | [seed, index, count] =>
      if fitsWord seed && fitsWord index && fitsWord count then
        some (.command (.seedStream (BitVec.ofNat 64 seed) (BitVec.ofNat 64 index) (BitVec.ofNat 64 count)))
      else none
    | _ => none
  else if mnemonic = "NEXT_U64".toList then
    match operands with
    | [] => some (.command .nextU64)
    | _ => none
  else if mnemonic = "NEXT_U32".toList then
    match operands with
    | [] => some (.command .nextU32)
    | _ => none
  else if mnemonic = "RESET".toList then
    match operands with
    | [] => some .reset
    | _ => none
  else if mnemonic = "FILL".toList then
    match operands with
    | [n] => some (.fill n)
    | _ => none
  else if mnemonic = "DISCARD".toList then
    match operands with
    | [k] => some (.discard k)
    | _ => none
  else none

/-- A line's mnemonic: its text up to the first white space. -/
def mnemonicText (cs : List Char) : List Char := cs.takeWhile fun c => !isSpace c

/-- Assembling one line of text (rules R70, R71). -/
def assembleLine (text : List Char) : LineResult :=
  let body := trimLine (stripComment text)
  if body.isEmpty then .blank
  else
    match readNumbers (operandFields (body.dropWhile fun c => !isSpace c)) with
    | none => .refused
    | some operands =>
      match buildLine (mnemonicText body) operands with
      | none => .refused
      | some l => .line l

/-- The hexadecimal digit of a value below 16. -/
def hexChar (n : Nat) : Char := if n < 10 then Char.ofNat (48 + n) else Char.ofNat (87 + n)

/-- A 64-bit operand as `0x` and sixteen digits, most significant first. -/
def wordText (w : Word) : List Char :=
  '0' :: 'x' :: (List.range 16).map fun k => hexChar (w.extractLsb' (60 - 4 * k) 4).toNat

/-- A seed byte as `0x` and two digits. -/
def byteText (b : Byte) : List Char :=
  ['0', 'x', hexChar (b.extractLsb' 4 4).toNat, hexChar (b.extractLsb' 0 4).toNat]

/-- Fields separated by commas. -/
def joinFields : List (List Char) → List Char
  | [] => []
  | [f] => f
  | f :: g :: fs => f ++ ',' :: joinFields (g :: fs)

/-- A command as a line of text (rule R70). -/
def lineText : Instr → List Char
  | .seedU64 seed => "SEED_U64".toList ++ ' ' :: wordText seed
  | .seedBytes bytes => "SEED_BYTES".toList ++ ' ' :: joinFields (bytes.map byteText)
  | .seedStream seed index count =>
    "SEED_STREAM".toList ++ ' ' :: joinFields [wordText seed, wordText index, wordText count]
  | .nextU64 => "NEXT_U64".toList
  | .nextU32 => "NEXT_U32".toList

end Sys2Proof.Machine
end

