-- ==== Sys2Proof/Machine/Micro.lean ====
section
/-!
DEFINITION. The micro-engine of rule R33: the hidden controller phases, the draw counter and the warm-up counter. It is not
architectural; the commands of `Machine/Construction.lean` and `Machine/Sampling.lean` give its results in one piece (rule R48,
log 1).
-/

namespace Sys2Proof.Machine

/-- The controller phases rule R33 names. -/
inductive MicroPhase where
  | idle
  /-- Drawing, with the draw counter. -/
  | drawing (count : Nat)
  | offsetting
  /-- Warming up, with the warm-up counter. -/
  | warmingUp (count : Nat)
  | stepping
  | responding
deriving DecidableEq, Repr

/-- The micro-state: the phase, the working registers, the offset to add and the word to answer with. -/
structure Micro where
  phase : MicroPhase
  gen : Generator
  smAcc : Word
  offset : Word
  output : Word
deriving DecidableEq, Repr

/-- One draw into the state word `DRAW_ORDER` names at the draw counter (rules R81, R90). -/
def Micro.draw (c : Config) (count : Nat) (m : Micro) : Micro :=
  match c.drawOrder[count]? with
  | none => m
  | some w => { m with gen := setStateWord m.gen w (smNext c m.smAcc).1, smAcc := (smNext c m.smAcc).2 }

/-- The phase after the draw with counter `count`: the next draw, a redraw if all words came out zero, or the offset (rules
R90, R99). -/
def Micro.afterDraw (c : Config) (count : Nat) (m : Micro) : Micro :=
  if count + 1 < c.drawOrder.length then { m with phase := .drawing (count + 1) }
  else if allZero m.gen then { m with phase := .drawing 0 }
  else { m with phase := .offsetting }

/-- One micro-step: one draw, one offset addition, one warm-up step, or one sampling step (rules R33, R166). -/
def microStep (c : Config) (m : Micro) : Micro :=
  match m.phase with
  | .idle => m
  | .drawing count => (m.draw c count).afterDraw c count
  | .offsetting => { m with gen := offsetFastLoop m.offset m.gen, phase := .warmingUp 0 }
  | .warmingUp count =>
    if count + 1 < c.warmupSteps then { m with gen := (coreStep c m.gen).2, phase := .warmingUp (count + 1) }
    else { m with gen := (coreStep c m.gen).2, phase := .responding }
  | .stepping => { m with gen := (coreStep c m.gen).2, output := (coreStep c m.gen).1, phase := .responding }
  | .responding => m

/-- `n` micro-steps. -/
def microRun (c : Config) : Nat → Micro → Micro
  | 0, m => m
  | n + 1, m => microRun c n (microStep c m)

/-- The micro-state in which a construction starts on the Generator State `gen` (rules R33, R80). -/
def Micro.startConstruction (gen : Generator) (seed offset : Word) : Micro :=
  { phase := .drawing 0, gen := gen, smAcc := seed, offset := offset, output := 0 }

/-- The micro-state in which a sampling command starts. -/
def Micro.startSampling (gen : Generator) (smAcc : Word) : Micro :=
  { phase := .stepping, gen := gen, smAcc := smAcc, offset := 0, output := 0 }

end Sys2Proof.Machine
end

