-- ==== Sys2Proof/Machine/Platform.lean ====
section
/-!
DEFINITION. A platform of `N_INSTANCES` blocks (rules R51, R146): each has its own state, its own command interface and its own
edges, and they share nothing (log 21).
-/

namespace Sys2Proof.Machine

/-- The blocks of a platform, at least one of them (rules R8, R146). -/
structure Platform where
  /-- Unit 0. -/
  first : State
  /-- Units 1, 2, and so on. -/
  others : List State
deriving DecidableEq, Repr

/-- The blocks in order. -/
def Platform.units (p : Platform) : List State := p.first :: p.others

/-- `N_INSTANCES` (rule R8). -/
def Platform.instances (p : Platform) : Nat := p.units.length

/-- Unit `k` replaced; nothing, where there is no unit `k`. -/
def Platform.setUnit (k : Nat) (t : State) (p : Platform) : Platform :=
  match k with
  | 0 => { p with first := t }
  | n + 1 => { p with others := p.others.set n t }

/-- One edge of unit `k`. Two points are the model's choice (log 21). Where the platform has no unit `k`, nothing happens.
Where the edge is one with `rst = 0` of a unit not yet reset, which rule R152 leaves unspecified for that unit alone, the
platform's step ends in that unit's fault and gives no state of the other units; an edge of another unit is not affected. -/
def Platform.stepUnit (k : Nat) (p : Platform) : Host.Outcome Platform Fault Refusal :=
  match p.units[k]? with
  | none => .next p
  | some s =>
    match step s with
    | .next t => .next (p.setUnit k t)
    | .fault f => .fault f
    | .refused r => .refused r

end Sys2Proof.Machine
end

