-- ==== Sys2Proof/Safety.lean ====
section
/-!
DEFINITION. The terms in which claims are stated: the invariant of the block's flags, status port and responses, the response
the controller holds, the host's handshake duty and what the block computes from its registers.
-/

namespace Sys2Proof.Machine

/-- The response of the command in progress, presented or not. -/
def State.held (s : State) : Option Response :=
  match s.ctrl with
  | .idle => none
  | .busy _ r => some r
  | .responding r => some r

/-- A command was accepted and its response is not yet presented (rule R163). -/
def State.isBusy (s : State) : Bool :=
  match s.ctrl with
  | .idle => false
  | .busy _ _ => true
  | .responding _ => false

/-- A response rule R130 allows in a state with this `FAULT` flag: a code from 0 to 5, no data with an error (rule R66), and
status OK exactly when the command left `FAULT = 0` (rules R28, R134). -/
structure ResponseLegal (fault : Bool) (r : Response) : Prop where
  code : r.status.toNat ≤ 5
  errorData : r.status ≠ statusBits .ok → r.data = 0
  okIffUnfaulted : r.status = statusBits .ok ↔ fault = false

/-- The invariant every step keeps. -/
structure State.Inv (s : State) : Prop where
  /-- "With `FAULT = 0`, `ERRCODE = 0`" (rule R28). -/
  errcodeClear : s.fault = false → s.errcode = 0
  /-- `ERRCODE` records codes 1 to 4 only (rules R30, R130). -/
  errcodeRecorded : s.fault = true → 1 ≤ s.errcode.toNat ∧ s.errcode.toNat ≤ 4
  /-- `status[7:5] = 0` (rule R30). -/
  portReserved : s.statusPort.extractLsb' 5 3 = 0
  /-- The port's `ERRCODE` field shows 0 to 4 (rule R30, conflict C10). -/
  portErrcode : (s.statusPort.extractLsb' 2 3).toNat ≤ 4
  /-- The port shows the present flags unless a command is between acceptance and presentation (rules R30, R163). -/
  portCurrent : s.isBusy = false → s.statusPort = s.flagsByte
  /-- The held response is legal. -/
  response : ∀ r, s.held = some r → ResponseLegal s.fault r

/-- A command is accepted at the coming edge (rule R61). -/
def State.accepts (s : State) : Bool := s.cmdReady && s.pins.cmdValid

/-- The host's duty between two edges (rule R161; log 15): an offer that was not accepted stays as it is. -/
def holdsOffer (now next : State) : Prop :=
  now.pins.cmdValid = true → now.accepts = false →
    next.pins.cmdValid = true ∧ next.pins.cmdWord = now.pins.cmdWord ∧ next.pins.cmdOpd = now.pins.cmdOpd

/-- The construction commands (rule R60). -/
def isConstruction : Instr → Bool
  | .seedU64 _ => true
  | .seedBytes _ => true
  | .seedStream _ _ _ => true
  | .nextU64 => false
  | .nextU32 => false

/-- The accumulator after `n` draws. -/
def accAfter (c : Config) : Nat → Word → Word
  | 0, acc => acc
  | n + 1, acc => accAfter c n (smNext c acc).2

/-- The first NEXT_U64 word of stream `i` of `n` under a configuration (rules R99, R102, R116). -/
def firstWord (c : Config) (seed i n : Word) : Word :=
  (coreStep c (placeStream c (streamOffset c i n) (drawState c seed).gen)).1

/-- No word stands twice in the list. -/
def noRepeats : List Word → Bool
  | [] => true
  | w :: ws => ws.all (fun v => v != w) && noRepeats ws

/-- The seeds of the tested set of rule R102: 0 to 19, 12345 and 2^64 - 1 (log 18). -/
def testedSeeds : List Word := (List.range 20).map (BitVec.ofNat 64) ++ [12345, 0xffffffffffffffff]

/-- The part of the state a host can learn from through responses and status: everything but `SM_ACC`, the inputs and the
parameters (rules R26, R32). -/
structure Visible where
  gen : Generator
  seeded : Bool
  fault : Bool
  errcode : BitVec 3
deriving DecidableEq, Repr

/-- The visible part of a state. -/
def State.visible (s : State) : Visible :=
  { gen := s.gen, seeded := s.seeded, fault := s.fault, errcode := s.errcode }

end Sys2Proof.Machine
end

