-- ==== Sys2Proof/Certificates/Slice0/Obligations.lean ====
section
/-!
DEFINITION. The statements about BISKI64-CORE. Each docstring names the rule of spec/ it formalises, or says what it is derived
from. The latencies, which the spec leaves open, stand in the state, and every statement holds for every value of them.
-/

open Sys2Proof Sys2Proof.Machine

/-! ### Parameters and the Seed Expander -/

/-- The configuration carries the values of the parameter table (rule R8), its step is rule R110's with its `FL_INC`, `ROT_A` and
`ROT_B`, other values of the three give the step with those values, and a platform has at least one instance. -/
def Obligations.ConfigHoldsTheParameterTable : Prop :=
  config.smGamma = 0x9e3779b97f4a7c15 ∧ config.smM1 = 0xbf58476d1ce4e5b9 ∧ config.smM2 = 0x94d049bb133111eb ∧
  config.smS1 = 30 ∧ config.smS2 = 27 ∧ config.smS3 = 31 ∧ config.warmupSteps = 16 ∧
  config.streamMul = 0x9999999999999999 ∧ config.flInc = 0x9999999999999999 ∧ config.rotA = 16 ∧ config.rotB = 40 ∧
  config.drawOrder = [.mix, .loopMix, .fastLoop] ∧ config.cpsFormula = .minus1 ∧
  config.offsetOrder = .beforeWarmup ∧ seedBytesLen = 32 ∧ config.flInc.getLsbD 0 = true ∧
  (∀ g, coreStep config g = stepV3 config.flInc config.rotA config.rotB g) ∧
  (∀ (inc : Word) (a b : Nat) (g : Generator),
    coreStep { config with flInc := inc, rotA := a, rotB := b } g = stepV3 inc a b g) ∧
  ∀ p : Platform, 1 ≤ p.instances

/-- Rule R81, `sm_next()`: the word returned and the accumulator left, for every accumulator. -/
def Obligations.ExpanderDrawFollowsItsFormula : Prop :=
  ∀ acc : Word,
    let z : Word := acc + 0x9e3779b97f4a7c15
    let z1 : Word := (z ^^^ (z >>> 30)) * 0xbf58476d1ce4e5b9
    let z2 : Word := (z1 ^^^ (z1 >>> 27)) * 0x94d049bb133111eb
    smNext config acc = (z2 ^^^ (z2 >>> 31), z)

/-- Derived from rule R81 (rules R82, R83): the output function is a bijection that fixes 0, so a draw returns 0 from one
accumulator value only. -/
def Obligations.ExpanderOutputIsABijection : Prop :=
  Function.Bijective (expanderFin config) ∧ (∀ z, expanderFin config z = 0 ↔ z = 0) ∧
  ∀ acc, (smNext config acc).1 = 0 ↔ acc = 0x61c8864680b583eb

/-- Derived from rule R81 (rule R83): no two of any 2^64 consecutive draws return the same word. -/
def Obligations.ExpanderWordsDoNotRepeat : Prop :=
  ∀ (acc : Word) (i j : Nat), i < 2 ^ 64 → j < 2 ^ 64 →
    (smNext config (accAfter config i acc)).1 = (smNext config (accAfter config j acc)).1 → i = j

/-- Derived from rules R90 and R92: one pass of the loop draws MIX, LOOP_MIX, FAST_LOOP in this order; a pass of three zeros is
discarded and the next continues from the accumulator; and for every seed the first pass is the result, whatever the bound on the
redraws (log 10). -/
def Obligations.DrawStateIsThreeDrawsInOrder : Prop :=
  (∀ (n : Nat) (acc : Word),
    let m := smNext config acc
    let lm := smNext config m.2
    let fl := smNext config lm.2
    drawLoop config (n + 1) acc =
      if m.1 = 0 ∧ lm.1 = 0 ∧ fl.1 = 0 then drawLoop config n fl.2
      else { gen := { fastLoop := fl.1, mix := m.1, loopMix := lm.1 }, smAcc := fl.2 }) ∧
  (∀ (n : Nat) (seed : Word), drawLoop config n seed = drawState config seed) ∧
  (∀ seed : Word,
    let m := smNext config seed
    let lm := smNext config m.2
    let fl := smNext config lm.2
    drawState config seed =
      { gen := { fastLoop := fl.1, mix := m.1, loopMix := lm.1 }, smAcc := seed + 0xdaa66d2c7ddf743f } ∧
    ¬(m.1 = 0 ∧ lm.1 = 0))

/-! ### The step -/

/-- Rule R110: the step's output word and the Generator State after it. -/
def Obligations.StepFollowsItsEquations : Prop :=
  ∀ f m l : Word,
    coreStep config { fastLoop := f, mix := m, loopMix := l } =
      (m + l,
        { fastLoop := f + 0x9999999999999999
          mix := m.rotateLeft 16 + l.rotateLeft 40
          loopMix := f ^^^ m })

/-- Derived from rule R110 (rule R113): the step is a bijection on Generator States, with the inverse the rule gives. -/
def Obligations.StepIsABijectionWithItsInverse : Prop :=
  (∀ g, unstepV3 config.flInc config.rotA config.rotB (coreStep config g).2 = g) ∧
  (∀ g, (coreStep config (unstepV3 config.flInc config.rotA config.rotB g)).2 = g) ∧
  (∀ f m l : Word,
    unstepV3 config.flInc config.rotA config.rotB { fastLoop := f, mix := m, loopMix := l } =
      { fastLoop := f - 0x9999999999999999
        mix := l ^^^ (f - 0x9999999999999999)
        loopMix := (m - (l ^^^ (f - 0x9999999999999999)).rotateLeft 16).rotateLeft 24 })

/-- Derived from rules R110 and R113 (rule R114): the all-zero state is no fixed point and has exactly one predecessor. -/
def Obligations.AllZeroStateHasOnePredecessor : Prop :=
  coreStep config { fastLoop := 0, mix := 0, loopMix := 0 } =
    (0, { fastLoop := 0x9999999999999999, mix := 0, loopMix := 0 }) ∧
  (∀ g, (coreStep config g).2 = { fastLoop := 0, mix := 0, loopMix := 0 } ↔
    g = { fastLoop := 0x6666666666666667, mix := 0x6666666666666667, loopMix := 0x999998999a999999 }) ∧
  (coreStep config
    { fastLoop := 0x6666666666666667, mix := 0x6666666666666667, loopMix := 0x999998999a999999 }).1 =
      0xffffff0001000000

/-- Derived from rule R110 (rule R112): `FAST_LOOP` takes every value once in any 2^64 consecutive steps, and a state sequence
repeats only after a multiple of 2^64 steps. -/
def Obligations.FastLoopVisitsEveryValue : Prop :=
  (∀ (g : Generator) (v : Word), ∃! k : Nat, k < 2 ^ 64 ∧ (advance config k g).fastLoop = v) ∧
  (∀ (g : Generator) (n : Nat), advance config n g = g → 2 ^ 64 ∣ n)

/-- Derived from rule R110 (rule R115): the word a step returns does not depend on `FAST_LOOP`, and the next step's does, for any
two values of it. -/
def Obligations.FastLoopReachesTheSecondWord : Prop :=
  ∀ f f' m l : Word,
    (coreStep config { fastLoop := f, mix := m, loopMix := l }).1 =
      (coreStep config { fastLoop := f', mix := m, loopMix := l }).1 ∧
    ((coreStep config (coreStep config { fastLoop := f, mix := m, loopMix := l }).2).1 =
      (coreStep config (coreStep config { fastLoop := f', mix := m, loopMix := l }).2).1 ↔ f = f')

/-- Rule R93: the warm-up performs 16 steps and discards their words. -/
def Obligations.WarmupIsSixteenSteps : Prop :=
  ∀ g, warmup config g = (fun x => (coreStep config x).2)^[16] g

/-! ### Stream offsets -/

/-- Rule R98: `CPS(N)` in wide arithmetic with its bounds, and the offset modulo 2^64. -/
def Obligations.StreamOffsetFollowsItsFormula : Prop :=
  ∀ i n : Word, 1 ≤ n.toNat → i.toNat < n.toNat →
    cyclesPerStream config n.toNat = (2 ^ 64 - 1) / n.toNat ∧
    1 ≤ cyclesPerStream config n.toNat ∧ cyclesPerStream config n.toNat ≤ 2 ^ 64 - 1 ∧
    (streamOffset config i n).toNat =
      (i.toNat * ((2 ^ 64 - 1) / n.toNat) * 0x9999999999999999) % 2 ^ 64

/-- Derived from rules R98 and R110 (rule R101): the product `i * CPS(N)` needs no reduction, the offset is what that many steps
add to `FAST_LOOP`, and distinct streams of a family have distinct offsets. -/
def Obligations.StreamOffsetsAreEvenlySpacedAndDistinct : Prop :=
  ∀ i j n : Word, i.toNat < n.toNat → j.toNat < n.toNat →
    i.toNat * cyclesPerStream config n.toNat ≤ 2 ^ 64 - 1 ∧
    (∀ g : Generator,
      (advance config (i.toNat * cyclesPerStream config n.toNat) g).fastLoop =
        g.fastLoop + streamOffset config i n) ∧
    (streamOffset config i n = streamOffset config j n → i = j)

/-! ### Construction commands -/

/-- Rule R95: with `FAULT = 0`, SEED_U64 draws, warms up, sets `SEEDED` and responds (OK, 0), for every seed and from
every earlier state, and changes nothing else; with `FAULT = 1` it only responds Faulted. -/
def Obligations.SeedU64Constructs : Prop :=
  ∀ (seed : Word) (s : State),
    (s.fault = false →
      exec (.seedU64 seed) s = .next { s with
        gen := warmup config (drawState config seed).gen
        smAcc := (drawState config seed).smAcc
        seeded := true
        ctrl := .busy s.latSeed { status := 0, data := 0 } }) ∧
    (s.fault = true →
      exec (.seedU64 seed) s = .next { s with ctrl := .busy s.latSeed { status := 5, data := 0 } })

/-- Rule R96: SEED_BYTES constructs as SEED_U64 does from the little-endian value of its first eight bytes. -/
def Obligations.SeedBytesConstructs : Prop :=
  ∀ (bytes : List Byte) (s : State), bytes.length = 32 →
    let seed := bytes.foldr (fun (b : Byte) (v : Nat) => b.toNat + 256 * v) 0 % 2 ^ 64
    (s.fault = false →
      exec (.seedBytes bytes) s = .next { s with
        gen := warmup config (drawState config (BitVec.ofNat 64 seed)).gen
        smAcc := (drawState config (BitVec.ofNat 64 seed)).smAcc
        seeded := true
        ctrl := .busy s.latSeed { status := 0, data := 0 } }) ∧
    (s.fault = true →
      exec (.seedBytes bytes) s = .next { s with ctrl := .busy s.latSeed { status := 5, data := 0 } })

/-- Rule R99, the success case: with `FAULT = 0` and `stream_index < total_streams`, SEED_STREAM draws, adds the offset to
`FAST_LOOP` only, warms up, sets `SEEDED` and responds (OK, 0), and changes nothing else. -/
def Obligations.SeedStreamConstructs : Prop :=
  ∀ (seed i n : Word) (s : State), s.fault = false → i.toNat < n.toNat →
    exec (.seedStream seed i n) s = .next { s with
      gen := warmup config
        { fastLoop := (drawState config seed).gen.fastLoop + streamOffset config i n
          mix := (drawState config seed).gen.mix
          loopMix := (drawState config seed).gen.loopMix }
      smAcc := (drawState config seed).smAcc
      seeded := true
      ctrl := .busy s.latSeed { status := 0, data := 0 } }

/-- Rules R100, R135 and R136: the count check comes before the index check; each raises its fault and leaves everything else as it
was; and with `FAULT = 1` SEED_STREAM only responds Faulted. -/
def Obligations.SeedStreamChecksItsPreconditions : Prop :=
  ∀ (seed i n : Word) (s : State),
    (s.fault = false → n = 0 →
      exec (.seedStream seed i n) s = .next { s with
        fault := true, errcode := 1, ctrl := .busy s.latSeed { status := 1, data := 0 } }) ∧
    (s.fault = false → 1 ≤ n.toNat → n.toNat ≤ i.toNat →
      exec (.seedStream seed i n) s = .next { s with
        fault := true, errcode := 2, ctrl := .busy s.latSeed { status := 2, data := 0 } }) ∧
    (s.fault = true →
      exec (.seedStream seed i n) s = .next { s with ctrl := .busy s.latSeed { status := 5, data := 0 } })

/-- Rules R42 and R43: seed byte `k` stands on `cmd_opd[8k+7:8k]`; the integer seed is `fromLE8` of the first eight, which is
`cmd_opd[63:0]`, and no other byte affects it. -/
def Obligations.ByteSeedIsLittleEndian : Prop :=
  (∀ opd : Operands, (opdBytes opd).length = 32 ∧
    (∀ k : Nat, k < 32 → (opdBytes opd)[k]? = some (opd.extractLsb' (8 * k) 8)) ∧
    fromLE8 (opdBytes opd) = opd.extractLsb' 0 64) ∧
  (∀ bytes : List Byte, bytes.length = 32 →
    (∀ k : Nat, k < 8 → bytes[k]? = some ((fromLE8 bytes).extractLsb' (8 * k) 8)) ∧
    ∀ other : List Byte, other.length = 32 → (∀ k : Nat, k < 8 → other[k]? = bytes[k]?) →
      fromLE8 other = fromLE8 bytes)

/-- Derived from rules R95 and R96 (rule R97): the words 0x01 and 0x02 with one operand bus have one effect. -/
def Obligations.SeedBytesActsAsSeedU64 : Prop :=
  ∀ (opd : Operands) (s : State), accept 0x02 opd s = accept 0x01 opd s

/-- Derived from rules R95, R98 and R99 (rule R103): stream 0 of any family is the single stream. -/
def Obligations.StreamZeroIsTheSingleStream : Prop :=
  ∀ (seed n : Word) (s : State), n ≠ 0 → exec (.seedStream seed 0 n) s = exec (.seedU64 seed) s

/-- Rule R104: a construction that succeeds leaves the same Generator State, accumulator and `SEEDED` whatever the earlier state
was. -/
def Obligations.ConstructionIgnoresTheEarlierState : Prop :=
  ∀ (i : Instr) (s s' t t' : State), isConstruction i = true → s.fault = false → s'.fault = false →
    exec i s = .next t → exec i s' = .next t' → t.fault = false →
    t'.fault = false ∧ t.gen = t'.gen ∧ t.smAcc = t'.smAcc ∧ t.seeded = true ∧ t'.seeded = true

/-- Rules R24 and R91: no construction command leaves the all-zero Generator State. -/
def Obligations.NoConstructionLeavesTheAllZeroState : Prop :=
  ∀ (i : Instr) (s t : State), isConstruction i = true → s.fault = false → exec i s = .next t → t.fault = false →
    t.gen ≠ { fastLoop := 0, mix := 0, loopMix := 0 }

/-- Derived from rules R99 and R110 (rule R102): with the offset before the warm-up, the streams of a family start with different
words on the tested seeds and counts; with the rejected order all of them start with one word, for every seed. -/
def Obligations.StreamsSeparateOnTheTestedSet : Prop :=
  ((testedSeeds.all fun seed => [2, 3, 4, 5, 6, 7, 8].all fun n =>
    noRepeats ((List.range n).map fun i => firstWord config seed (BitVec.ofNat 64 i) (BitVec.ofNat 64 n))) = true) ∧
  (∀ seed i j n : Word,
    firstWord { config with offsetOrder := .afterWarmup } seed i n =
      firstWord { config with offsetOrder := .afterWarmup } seed j n)

/-- The frame of the construction commands, derived from rules R94, R95, R96, R99, R133 and R134: none writes the status port, the
inputs or the parameters; one that ends without error leaves `FAULT` and `ERRCODE`; one that does not leaves the Generator State,
the accumulator and `SEEDED`. -/
def Obligations.ConstructionFrame : Prop :=
  ∀ (i : Instr) (s t : State), isConstruction i = true → exec i s = .next t →
    t.statusPort = s.statusPort ∧ t.inputs = s.inputs ∧ t.wasReset = s.wasReset ∧
    t.latSeed = s.latSeed ∧ t.latNext = s.latNext ∧ t.latIllegal = s.latIllegal ∧
    (t.fault = false → s.fault = false ∧ t.errcode = s.errcode) ∧
    (t.fault = true → t.gen = s.gen ∧ t.smAcc = s.smAcc ∧ t.seeded = s.seeded)

/-! ### Sampling commands -/

/-- Rule R116: in mode READY, NEXT_U64 takes one step and responds (OK, w); with `SEEDED = 0` it raises NotSeeded; with
`FAULT = 1` it only responds Faulted. It writes nothing else. -/
def Obligations.NextU64Samples : Prop :=
  ∀ s : State,
    (s.fault = false → s.seeded = true →
      exec .nextU64 s = .next { s with
        gen :=
          { fastLoop := s.gen.fastLoop + 0x9999999999999999
            mix := s.gen.mix.rotateLeft 16 + s.gen.loopMix.rotateLeft 40
            loopMix := s.gen.fastLoop ^^^ s.gen.mix }
        ctrl := .busy s.latNext { status := 0, data := s.gen.mix + s.gen.loopMix } }) ∧
    (s.fault = false → s.seeded = false →
      exec .nextU64 s = .next { s with
        fault := true, errcode := 3, ctrl := .busy s.latNext { status := 3, data := 0 } }) ∧
    (s.fault = true →
      exec .nextU64 s = .next { s with ctrl := .busy s.latNext { status := 5, data := 0 } })

/-- Rule R117: in mode READY, NEXT_U32 takes one step and responds with bits 63..32 of its word in the low half; with `SEEDED = 0`
it raises NotSeeded; with `FAULT = 1` it only responds Faulted. It writes nothing else. -/
def Obligations.NextU32Samples : Prop :=
  ∀ s : State,
    (s.fault = false → s.seeded = true →
      exec .nextU32 s = .next { s with
        gen :=
          { fastLoop := s.gen.fastLoop + 0x9999999999999999
            mix := s.gen.mix.rotateLeft 16 + s.gen.loopMix.rotateLeft 40
            loopMix := s.gen.fastLoop ^^^ s.gen.mix }
        ctrl := .busy s.latNext { status := 0, data := (s.gen.mix + s.gen.loopMix) >>> 32 } }) ∧
    (s.fault = false → s.seeded = false →
      exec .nextU32 s = .next { s with
        fault := true, errcode := 3, ctrl := .busy s.latNext { status := 3, data := 0 } }) ∧
    (s.fault = true →
      exec .nextU32 s = .next { s with ctrl := .busy s.latNext { status := 5, data := 0 } })

/-- Rule R120 with the frame of rules R116 and R117: a sampling command never writes the accumulator or `SEEDED`, the status port,
the inputs or the parameters; in mode READY it raises no error; and where it does not complete it leaves the Generator State. -/
def Obligations.SamplingFrame : Prop :=
  ∀ (i : Instr) (s t : State), isConstruction i = false → exec i s = .next t →
    t.smAcc = s.smAcc ∧ t.seeded = s.seeded ∧ t.statusPort = s.statusPort ∧ t.inputs = s.inputs ∧
    t.wasReset = s.wasReset ∧ t.latSeed = s.latSeed ∧ t.latNext = s.latNext ∧ t.latIllegal = s.latIllegal ∧
    (s.mode = .ready → t.fault = false ∧ t.errcode = s.errcode ∧ ∃ d, t.held = some { status := 0, data := d }) ∧
    (s.mode ≠ .ready → t.gen = s.gen ∧ t.fault = true)

/-! ### Errors -/

/-- Rule R131: NEXT_U64 or NEXT_U32 with `FAULT = 0` and `SEEDED = 0` raises NotSeeded and takes no step. -/
def Obligations.UnseededSamplingRaisesNotSeeded : Prop :=
  ∀ (i : Instr) (s : State), (i = .nextU64 ∨ i = .nextU32) → s.fault = false → s.seeded = false →
    exec i s = .next { s with
      fault := true, errcode := 3, ctrl := .busy s.latNext { status := 3, data := 0 } }

/-- Rules R65 and R132: a word with `RSVD` not zero, or with `OP` 0 or 6 to 15, raises IllegalCommand when `FAULT = 0`, whatever
the operand bus carries, and changes nothing else. -/
def Obligations.IllegalWordsRaiseIllegalCommand : Prop :=
  ∀ (w : Byte) (opd : Operands) (s : State),
    (w.extractLsb' 4 4 ≠ 0 ∨ w.extractLsb' 0 4 = 0 ∨ 6 ≤ (w.extractLsb' 0 4).toNat) → s.fault = false →
    accept w opd s = .next { s with
      fault := true, errcode := 4, ctrl := .busy s.latIllegal { status := 4, data := 0 } }

/-- Rule R133: a command that sets `FAULT` records its code, one of 1 to 4, responds (code, 0), and writes nothing else. -/
def Obligations.FaultEntryIsPrecise : Prop :=
  ∀ (w : Byte) (opd : Operands) (s t : State), s.fault = false → accept w opd s = .next t → t.fault = true →
    ∃ code : BitVec 3, 1 ≤ code.toNat ∧ code.toNat ≤ 4 ∧
      t = { s with
        fault := true, errcode := code, ctrl := .busy (latencyOf w s) { status := code, data := 0 } }

/-- Rule R134: with `FAULT = 1` every word, legal or not, is answered (Faulted, 0) and changes no state. -/
def Obligations.FaultedBlockServesNothing : Prop :=
  ∀ (w : Byte) (opd : Operands) (s : State), s.fault = true →
    accept w opd s = .next { s with ctrl := .busy (latencyOf w s) { status := 5, data := 0 } }

/-- Rule R137: one command reports exactly one status, decided by the checks in this order; if none applies the command runs. -/
def Obligations.StatusFollowsThePriority : Prop :=
  ∀ (w : Byte) (opd : Operands) (s : State), ∃ t r, accept w opd s = .next t ∧ t.held = some r ∧
    (r.status =
      if s.fault = true then 5
      else if decodeWord w = .illegal then 4
      else if (w = 0x04 ∨ w = 0x05) ∧ s.seeded = false then 3
      else if w = 0x03 ∧ opd.extractLsb' 128 64 = 0 then 1
      else if w = 0x03 ∧ (opd.extractLsb' 128 64).toNat ≤ (opd.extractLsb' 64 64).toNat then 2
      else 0) ∧
    (r.status = 0 → ∃ i, decode w opd = some i ∧ exec i s = .next t)

/-- Rule R66: every accepted command gets one response; its status is OK or an error code, and its data is the step's word for NEXT_U64 with status OK, the word's high
half for NEXT_U32 with status OK, and 0 in every other case. -/
def Obligations.ResponseDataByCommand : Prop :=
  ∀ (w : Byte) (opd : Operands) (s : State), ∃ t r, accept w opd s = .next t ∧ t.held = some r ∧
    r.status.toNat ≤ 5 ∧
    r.data =
      if r.status = 0 ∧ w = 0x04 then (coreStep config s.gen).1
      else if r.status = 0 ∧ w = 0x05 then ((coreStep config s.gen).1.extractLsb' 32 32).setWidth 64
      else 0

/-- Rule R28: `FAULT` stays 1 until reset and `ERRCODE` with it; an error sets both, with the code of its response; and with
`FAULT = 0`, `ERRCODE` is 0. -/
def Obligations.FaultIsStickyUntilReset : Prop :=
  ∀ s t : State, step s = .next t →
    (s.fault = true → s.pins.rst = false → t.fault = true ∧ t.errcode = s.errcode) ∧
    (s.fault = false → t.fault = true →
      s.pins.rst = false ∧ s.accepts = true ∧ t.held = some { status := t.errcode, data := 0 }) ∧
    (s.accepts = true → (∃ r, t.held = some r ∧ r.status ≠ 0) → t.fault = true) ∧
    (s.Inv → t.fault = false → t.errcode = 0)

/-- Derived from rule R27, one edge at a time: `SEEDED` is 1 after an edge exactly when the edge was not a reset and it was 1 before
or the edge accepted a construction command that responds (OK, 0). -/
def Obligations.SeededMeansConstructed : Prop :=
  ∀ s t : State, step s = .next t →
    (t.seeded = true ↔
      s.pins.rst = false ∧
        (s.seeded = true ∨
          (s.accepts = true ∧ t.held = some { status := 0, data := 0 } ∧
            ∃ i, decode s.pins.cmdWord s.pins.cmdOpd = some i ∧ isConstruction i = true)))

/-! ### Encoding -/

/-- Rule R69: every one of the 256 words decodes to exactly one of the five commands or ILLEGAL. -/
def Obligations.DecodeIsTotal : Prop :=
  ∀ w : Byte, decodeWord w =
    if w.extractLsb' 4 4 ≠ 0 then .illegal
    else match (w.extractLsb' 0 4).toNat with
      | 1 => .seedU64
      | 2 => .seedBytes
      | 3 => .seedStream
      | 4 => .nextU64
      | 5 => .nextU32
      | _ => .illegal

/-- Derived from rules R63, R64, R67 and R70: decoding an encoded well-formed instruction gives it back, with every operand. -/
def Obligations.DecodeOfEncodeIsTheInstruction : Prop :=
  ∀ i : Instr, i.wellFormed = true → decode (encode i).1 (encode i).2 = some i

/-- Derived from rules R63, R64, R67 and R70: what decodes is well-formed, its word is the word decoded, and its operand bus agrees
with the bus decoded on the fields rule R63 lists for the command (for SEED_BYTES all 32 bytes) and is 0 elsewhere. -/
def Obligations.EncodeOfDecodeIsCanonical : Prop :=
  ∀ (w : Byte) (opd : Operands) (i : Instr), decode w opd = some i →
    i.wellFormed = true ∧ (encode i).1 = w ∧
    (encode i).2 =
      match i with
      | .seedU64 _ => opd &&& 0x000000000000000000000000000000000000000000000000ffffffffffffffff
      | .seedBytes _ => opd
      | .seedStream _ _ _ => opd &&& 0x0000000000000000ffffffffffffffffffffffffffffffffffffffffffffffff
      | .nextU64 => 0
      | .nextU32 => 0

/-- Rule R68: operand bits a command does not read have no effect on any state or response. -/
def Obligations.UnreadOperandBitsAreIgnored : Prop :=
  ∀ (opd opd' : Operands) (s : State),
    (opd.extractLsb' 0 64 = opd'.extractLsb' 0 64 →
      accept 0x01 opd s = accept 0x01 opd' s ∧ accept 0x02 opd s = accept 0x02 opd' s) ∧
    (opd.extractLsb' 0 192 = opd'.extractLsb' 0 192 → accept 0x03 opd s = accept 0x03 opd' s) ∧
    accept 0x04 opd s = accept 0x04 opd' s ∧ accept 0x05 opd s = accept 0x05 opd' s

/-- Derived from rules R63 and R64 (rule R72): the example encodings decode to the commands they stand for, and the illegal words
of V-D2 to none. -/
def Obligations.ExampleEncodingsDecode : Prop :=
  decode 0x01 0x3039 = some (.seedU64 12345) ∧
  decode 0x02 0x3039 = some (.seedBytes (0x39 :: 0x30 :: List.replicate 30 0)) ∧
  decode 0x03 0x000000000000000000000000000000040000000000000001_0000000000003039 =
    some (.seedStream 12345 1 4) ∧
  decode 0x04 0 = some .nextU64 ∧ decode 0x05 0 = some .nextU32 ∧
  ∀ w ∈ [(0x00 : Byte), 0x06, 0x0f, 0x14, 0x81, 0x11, 0xf4], decode w 0 = none

/-- Derived from rules R60 and R70: every command an assembled line holds is well-formed. -/
def Obligations.AssembledCommandsAreWellFormed : Prop :=
  ∀ (text : List Char) (i : Instr), assembleLine text = .line (.command i) → i.wellFormed = true

/-- Derived from rule R70: the text of a well-formed command assembles to that command. -/
def Obligations.AssemblerReadsTheTextOfACommand : Prop :=
  ∀ i : Instr, i.wellFormed = true → assembleLine (lineText i) = .line (.command i)

/-! ### Edges -/

/-- Derived from rules R61, R67 and R69: at an edge with `rst = 0` on an idle block that has been reset, an offered word that decodes
is run on the state with its inputs moved on. The second clause is the model's choice and no rule's: the word `withFetchWord` places
(log 7), numbered as log 17 says, is run at the very next step, on the state with any earlier command settled. -/
def Obligations.StepRunsTheDecodedCommand : Prop :=
  (∀ (s : State) (i : Instr), s.wasReset = true → s.ctrl = .idle → s.pins.rst = false → s.pins.cmdValid = true →
    decode s.pins.cmdWord s.pins.cmdOpd = some i → step s = exec i s.nextInputs) ∧
  (∀ (s : State) (nbits w : Nat) (i : Instr), decodeTableWord nbits w = some i →
    step (s.withFetchWord nbits w) = exec i { s.settle with wasReset := true })

/-- Derived from rule R150: a reset edge, from any state, and the reset state: flags and status port 0, controller idle, no response
presented, mode UNSEEDED, and `cmd_ready` 1 once `rst` is 0. That no response is taken at the reset edge itself, also where
`rsp_valid` and `rsp_ready` are 1, is the model's choice (log 25), as are the kept inputs (log 6, log 23) and `wasReset` (log 5). The
registers reset leaves unspecified are not mentioned (log 4). -/
def Obligations.ResetLeavesTheBlockUnseededAndIdle : Prop :=
  (∀ s : State, s.pins.rst = true → takenResponse s = none ∧ ∃ t, step s = .next t ∧
    t.seeded = false ∧ t.fault = false ∧ t.errcode = 0 ∧ t.statusPort = 0 ∧ t.ctrl = .idle ∧
    t.rspValid = false ∧ t.rspPort = none ∧ (t.pins.rst = false → t.cmdReady = true) ∧ t.mode = .unseeded ∧
    t.wasReset = true ∧ t.inputs = s.inputs.tail) ∧
  State.reset.seeded = false ∧ State.reset.fault = false ∧ State.reset.errcode = 0 ∧ State.reset.statusPort = 0 ∧
  State.reset.ctrl = .idle ∧ State.reset.rspValid = false ∧ State.reset.cmdReady = true ∧
  State.reset.mode = .unseeded

/-- The invariant holds in the reset state. -/
def Obligations.ResetSatisfiesTheInvariant : Prop := State.reset.Inv

/-- Every edge keeps the invariant: `ERRCODE` is 0 or a recorded code as `FAULT` says (rules R28, R130), the status port's reserved
bits are 0 and its code legal (rule R30), the port is current outside a command in progress (rule R163), and a held response is
legal (rules R66, R130). -/
def Obligations.StepKeepsTheInvariant : Prop :=
  ∀ s t : State, s.Inv → step s = .next t → t.Inv

/-- Derived from rule R30: the bits of the status byte. -/
def Obligations.StatusByteLayout : Prop :=
  ∀ s : State,
    s.flagsByte.getLsbD 0 = s.seeded ∧ s.flagsByte.getLsbD 1 = s.fault ∧
    s.flagsByte.extractLsb' 2 3 = s.errcode ∧ s.flagsByte.extractLsb' 5 3 = 0

/-- Rule R163: the status port takes the flags as the command left them when its response is presented, and keeps its value at
every other edge without reset, from acceptance on. -/
def Obligations.StatusPortTiming : Prop :=
  ∀ s t : State, step s = .next t → s.pins.rst = false →
    (s.rspValid = false → t.rspValid = true → t.statusPort = t.flagsByte) ∧
    (¬(s.rspValid = false ∧ t.rspValid = true) → t.statusPort = s.statusPort)

/-- Derived from rules R61 and R161: a presented response stays the same until it is taken, and then the block can accept again;
meanwhile it accepts nothing. -/
def Obligations.ResponseStaysUntilTaken : Prop :=
  ∀ (s t : State) (r : Response), step s = .next t → s.rspPort = some r → s.pins.rst = false →
    s.cmdReady = false ∧
    (s.pins.rspReady = false → t.rspPort = some r ∧ takenResponse s = none) ∧
    (s.pins.rspReady = true → takenResponse s = some r ∧ t.rspValid = false ∧
      (t.pins.rst = false → t.cmdReady = true))

/-- Rule R148: the registers change only on an accepted command or reset. -/
def Obligations.BlockHoldsItsStateBetweenCommands : Prop :=
  ∀ s t : State, step s = .next t → s.pins.rst = false → s.accepts = false →
    t.gen = s.gen ∧ t.smAcc = s.smAcc ∧ t.seeded = s.seeded ∧ t.fault = s.fault ∧ t.errcode = s.errcode

/-- Derived from rules R61 and R164: an accepted command presents its response, with no condition on the inputs but that reset is not
asserted. The exact edge is the model's choice: how the latency counts edges (log 22), that 0 acts as 1 (log 2), and the latency of
an illegal word (log 3). -/
def Obligations.EveryCommandPresentsItsResponse : Prop :=
  ∀ s : State, s.wasReset = true → s.accepts = true →
    (∀ p ∈ s.inputs.take (1 + max 1 (latencyOf s.pins.cmdWord s)), p.rst = false) →
    ∃ t r u, accept s.pins.cmdWord s.pins.cmdOpd s.nextInputs = .next t ∧ t.held = some r ∧
      core.run (1 + max 1 (latencyOf s.pins.cmdWord s)) s = .next u ∧ u.rspPort = some r

/-- Derived from rules R152 and R165: a block that has been reset never stops, whatever the host drives; one that has not stops at
any edge without reset, where the spec leaves everything unspecified (log 5). -/
def Obligations.BlockRunsOnceReset : Prop :=
  (∀ (n : Nat) (s : State), s.wasReset = true → ∃ t : State, core.run n s = .next t ∧ t.wasReset = true) ∧
  (∀ s : State, s.wasReset = false → s.pins.rst = false → step s = .fault .beforeFirstReset)

/-! ### Whole transactions -/

/-- Derived from rules R50 and R61: driven edge by edge, a sequence of host actions gives the state and the responses that the
actions give one after another. The number of edges an action takes is the model's choice (log 2, log 3, log 22). -/
def Obligations.EdgesCarryOutTheTransactions : Prop :=
  ∀ (actions : List HostAction) (s : State) (rest : List Pins), s.ctrl = .idle → s.wasReset = true →
    ∃ t rs, hostRun actions s = some (t, rs) ∧ t.ctrl = .idle ∧
      observeEdges (actions.flatMap (fun a => actionPins a s)).length
          { s with inputs := actions.flatMap (fun a => actionPins a s) ++ rest } =
        some ({ t with inputs := rest }, rs)

/-- Derived from rule R118 (rule R119): in mode READY, on a block that was reset and has no command in progress, FILL(n) leaves the
state of `ceil(n / 8)` NEXT_U64 commands, and its bytes are the first `n` of the little-endian bytes of their words. On any other
block a FILL that sends a command has no result, and neither have its commands; that is the model's choice (log 5, log 26). -/
def Obligations.FillMatchesSuccessiveWords : Prop :=
  (∀ (n : Nat) (s : State), s.wasReset = true → s.ctrl = .idle → s.mode = .ready →
    ∃ t rs, hostRun (HostLine.fill n).expand s = some (t, rs) ∧ (∀ r ∈ rs, r.status = 0) ∧
      hostFill n s = some (t, (rs.flatMap fun r => le8 r.data).take n) ∧
      ((rs.flatMap fun r => le8 r.data).take n).length = n) ∧
  (∀ (n : Nat) (s : State), 0 < n → (s.wasReset = false ∨ s.ctrl ≠ .idle) →
    hostRun (HostLine.fill n).expand s = none ∧ hostFill n s = none)

/-- Derived from rules R102, R105, R116 (rule R154): from any state, reset, one construction with legal operands, then any number of
samples all answer OK. -/
def Obligations.BootOrderNeverErrs : Prop :=
  ∀ (s : State) (i : Instr) (samples : List Instr), isConstruction i = true → i.wellFormed = true →
    (∀ seed k n, i = .seedStream seed k n → k.toNat < n.toNat) → (∀ j ∈ samples, isConstruction j = false) →
    ∃ t rs, hostRun (.reset :: sendInstr i :: samples.map sendInstr) s = some (t, rs) ∧
      rs.length = 1 + samples.length ∧ (∀ r ∈ rs, r.status = 0) ∧ t.mode = .ready

/-- Derived from rules R26, R32 and R34: the accumulator is never observed. Two blocks that agree on the Generator State and the flags
answer any sequence of host actions alike, whatever their accumulators, and agree again after it. -/
def Obligations.AccumulatorIsNeverObserved : Prop :=
  ∀ (actions : List HostAction) (s s' t t' : State) (rs rs' : List Response), s.visible = s'.visible →
    hostRun actions s = some (t, rs) → hostRun actions s' = some (t', rs') →
    rs = rs' ∧ t.visible = t'.visible

/-- Rule R51: an edge of one unit changes that unit as it would alone, changes no other unit, and edges of different units commute. -/
def Obligations.UnitsAreIndependent : Prop :=
  (∀ (k : Nat) (p q : Platform) (s : State), p.units[k]? = some s → p.stepUnit k = .next q →
    ∃ t, step s = .next t ∧ q.units[k]? = some t) ∧
  (∀ (j k : Nat) (p q : Platform), j ≠ k → p.stepUnit k = .next q → q.units[j]? = p.units[j]?) ∧
  (∀ (j k : Nat) (p q q' : Platform), j ≠ k → p.stepUnit k = .next q → p.stepUnit j = .next q' →
    ∃ r, q.stepUnit j = .next r ∧ q'.stepUnit k = .next r)

/-- Derived from rules R33 and R166, the micro-engine's form being the model's (log 1): the micro-engine, after 3 draws, one offset addition and 16 warm-up steps, holds the registers
the construction leaves; and a sampling command's one step gives its word and state. -/
def Obligations.MicroEngineAgreesWithTheCommands : Prop :=
  (∀ (gen : Generator) (seed off : Word),
    microRun config 20 (Micro.startConstruction gen seed off) =
      { phase := .responding, gen := placeStream config off (drawState config seed).gen,
        smAcc := (drawState config seed).smAcc, offset := off, output := 0 }) ∧
  (∀ (gen : Generator) (acc : Word),
    microRun config 1 (Micro.startSampling gen acc) =
      { phase := .responding, gen := (coreStep config gen).2, smAcc := acc, offset := 0,
        output := (coreStep config gen).1 })

/-- Rule R164, with no count of edges: an accepted command is in progress after its edge; a command in progress presents its response
after some number of edges, the same whatever the host drives but reset; and a presented response waits on `rsp_ready` alone. -/
def Obligations.EveryCommandInProgressCompletes : Prop :=
  (∀ s : State, s.wasReset = true → s.accepts = true →
    ∃ t r, step s = .next t ∧ t.held = some r ∧ t.wasReset = true) ∧
  (∀ (s : State) (r : Response), s.wasReset = true → s.held = some r →
    ∃ n : Nat, ∀ inputs : List Pins, (∀ p ∈ inputs.take n, p.rst = false) →
      ∃ u, core.run n { s with inputs := inputs } = .next u ∧ u.rspPort = some r) ∧
  (∀ (s : State) (r : Response), s.wasReset = true → s.rspPort = some r → s.pins.rst = false → s.pins.rspReady = true →
    ∃ u, step s = .next u ∧ u.ctrl = .idle)
end

