-- ==== Sys2Proof/Laws/Parameters.lean ====
section
/-!
SUPPORT. The configuration's fields, one lemma each, so that proofs rewrite a field and never unfold the whole configuration.
-/

namespace Sys2Proof.Machine

@[simp] theorem config_noWordData : config.noWordData = 0 := by rfl
@[simp] theorem config_warmupSteps : config.warmupSteps = 16 := by rfl
@[simp] theorem config_drawOrder : config.drawOrder = [.mix, .loopMix, .fastLoop] := by rfl
@[simp] theorem config_cpsFormula : config.cpsFormula = .minus1 := by rfl
@[simp] theorem config_offsetOrder : config.offsetOrder = .beforeWarmup := by rfl
@[simp] theorem config_streamMul : config.streamMul = 0x9999999999999999 := by rfl
@[simp] theorem config_smGamma : config.smGamma = 0x9e3779b97f4a7c15 := by rfl
@[simp] theorem config_flInc : config.flInc = 0x9999999999999999 := by rfl

/-- The step of this hardware is rule R110's. -/
theorem coreStep_config : coreStep config = stepV3 0x9999999999999999 16 40 := by rfl

/-- The stream placement of this hardware: offset, then warm-up (rule R99). -/
theorem placeStream_config (off : Word) (g : Generator) :
    placeStream config off g = warmup config (offsetFastLoop off g) := by rfl

/-- One step adds `FL_INC` to `FAST_LOOP` (rule R22). -/
@[simp] theorem coreStep_fastLoop (g : Generator) :
    (coreStep config g).2.fastLoop = g.fastLoop + 0x9999999999999999 := by rfl

/-- Advancing one step more: the step, then the rest. -/
theorem advance_succ (c : Config) (n : Nat) (g : Generator) :
    advance c (n + 1) g = advance c n (coreStep c g).2 := by rfl

/-- Advancing by a sum. -/
theorem advance_add (c : Config) (m n : Nat) (g : Generator) :
    advance c (m + n) g = advance c n (advance c m g) := by
  induction m generalizing g with
  | zero => rw [Nat.zero_add, advance]
  | succ m ih => rw [Nat.succ_add, advance_succ, advance_succ, ih]

/-- `n` steps add `n * FL_INC` to `FAST_LOOP` (rule R22). -/
theorem advance_fastLoop (n : Nat) (g : Generator) :
    (advance config n g).fastLoop = g.fastLoop + BitVec.ofNat 64 (n * 0x9999999999999999) := by
  induction n generalizing g with
  | zero => simp [advance]
  | succ n ih =>
    rw [advance_succ, ih, coreStep_fastLoop, Nat.add_mul, Nat.one_mul, BitVec.ofNat_add, BitVec.add_assoc,
      BitVec.add_comm (BitVec.ofNat 64 (n * 0x9999999999999999)), BitVec.ofNat_eq_ofNat]

/-! ### The Seed Expander and its loop, for any configuration -/

theorem smNext_fst (c : Config) (acc : Word) : (smNext c acc).1 = expanderFin c (acc + c.smGamma) := by rfl
theorem smNext_snd (c : Config) (acc : Word) : (smNext c acc).2 = acc + c.smGamma := by rfl

theorem drawLoop_zero (c : Config) (acc : Word) : drawLoop c 0 acc = drawPass c acc := by rfl

theorem drawLoop_succ (c : Config) (n : Nat) (acc : Word) :
    drawLoop c (n + 1) acc =
      if allZero (drawPass c acc).gen then drawLoop c n (drawPass c acc).smAcc else drawPass c acc := by rfl

/-- One pass in the order MIX, LOOP_MIX, FAST_LOOP (rule R90). -/
theorem drawPass_of_order (c : Config) (h : c.drawOrder = [.mix, .loopMix, .fastLoop]) (acc : Word) :
    drawPass c acc =
      { gen :=
          { fastLoop := (smNext c (smNext c (smNext c acc).2).2).1
            mix := (smNext c acc).1
            loopMix := (smNext c (smNext c acc).2).1 }
        smAcc := (smNext c (smNext c (smNext c acc).2).2).2 } := by
  rw [drawPass, h]
  rfl

theorem allZero_iff (g : Generator) : allZero g = true ↔ g = { fastLoop := 0, mix := 0, loopMix := 0 } := by
  cases g
  simp [allZero, and_assoc]

end Sys2Proof.Machine
end

