-- ==== Sys2Proof/Laws/State.lean ====
section
/-!
SUPPORT. One lemma per field of State per update, true by rfl: what each shared operation writes and what it leaves. The proofs are
written `by rfl` on purpose: a lemma whose proof is the bare term `rfl` is applied by `simp` without a proof step, and the kernel is then
left to compare whole states, which unfolds the words written (it runs a step or a warm-up on variables). Rewriting with these lemmas
leaves a proof step that is checked at once.
-/

namespace Sys2Proof.Machine

/-! ### `respond` -/

@[simp] theorem respond_gen (n : Nat) (k : StatusCode) (d : Word) (s : State) : (respond n k d s).gen = s.gen := by rfl
@[simp] theorem respond_smAcc (n : Nat) (k : StatusCode) (d : Word) (s : State) : (respond n k d s).smAcc = s.smAcc := by rfl
@[simp] theorem respond_seeded (n : Nat) (k : StatusCode) (d : Word) (s : State) : (respond n k d s).seeded = s.seeded := by rfl
@[simp] theorem respond_fault (n : Nat) (k : StatusCode) (d : Word) (s : State) : (respond n k d s).fault = s.fault := by rfl
@[simp] theorem respond_errcode (n : Nat) (k : StatusCode) (d : Word) (s : State) : (respond n k d s).errcode = s.errcode := by rfl
@[simp] theorem respond_ctrl (n : Nat) (k : StatusCode) (d : Word) (s : State) : (respond n k d s).ctrl = .busy n { status := statusBits k, data := d } := by rfl
@[simp] theorem respond_statusPort (n : Nat) (k : StatusCode) (d : Word) (s : State) : (respond n k d s).statusPort = s.statusPort := by rfl
@[simp] theorem respond_inputs (n : Nat) (k : StatusCode) (d : Word) (s : State) : (respond n k d s).inputs = s.inputs := by rfl
@[simp] theorem respond_latSeed (n : Nat) (k : StatusCode) (d : Word) (s : State) : (respond n k d s).latSeed = s.latSeed := by rfl
@[simp] theorem respond_latNext (n : Nat) (k : StatusCode) (d : Word) (s : State) : (respond n k d s).latNext = s.latNext := by rfl
@[simp] theorem respond_latIllegal (n : Nat) (k : StatusCode) (d : Word) (s : State) : (respond n k d s).latIllegal = s.latIllegal := by rfl
@[simp] theorem respond_wasReset (n : Nat) (k : StatusCode) (d : Word) (s : State) : (respond n k d s).wasReset = s.wasReset := by rfl

/-! ### `raiseFault` -/

@[simp] theorem raiseFault_gen (n : Nat) (k : StatusCode) (s : State) : (raiseFault n k s).gen = s.gen := by rfl
@[simp] theorem raiseFault_smAcc (n : Nat) (k : StatusCode) (s : State) : (raiseFault n k s).smAcc = s.smAcc := by rfl
@[simp] theorem raiseFault_seeded (n : Nat) (k : StatusCode) (s : State) : (raiseFault n k s).seeded = s.seeded := by rfl
@[simp] theorem raiseFault_fault (n : Nat) (k : StatusCode) (s : State) : (raiseFault n k s).fault = true := by rfl
@[simp] theorem raiseFault_errcode (n : Nat) (k : StatusCode) (s : State) : (raiseFault n k s).errcode = statusBits k := by rfl
@[simp] theorem raiseFault_ctrl (n : Nat) (k : StatusCode) (s : State) : (raiseFault n k s).ctrl = .busy n { status := statusBits k, data := config.noWordData } := by rfl
@[simp] theorem raiseFault_statusPort (n : Nat) (k : StatusCode) (s : State) : (raiseFault n k s).statusPort = s.statusPort := by rfl
@[simp] theorem raiseFault_inputs (n : Nat) (k : StatusCode) (s : State) : (raiseFault n k s).inputs = s.inputs := by rfl
@[simp] theorem raiseFault_latSeed (n : Nat) (k : StatusCode) (s : State) : (raiseFault n k s).latSeed = s.latSeed := by rfl
@[simp] theorem raiseFault_latNext (n : Nat) (k : StatusCode) (s : State) : (raiseFault n k s).latNext = s.latNext := by rfl
@[simp] theorem raiseFault_latIllegal (n : Nat) (k : StatusCode) (s : State) : (raiseFault n k s).latIllegal = s.latIllegal := by rfl
@[simp] theorem raiseFault_wasReset (n : Nat) (k : StatusCode) (s : State) : (raiseFault n k s).wasReset = s.wasReset := by rfl

/-! ### `finishConstruction` -/

@[simp] theorem finishConstruction_gen (g : Generator) (a : Word) (s : State) : (finishConstruction g a s).gen = g := by rfl
@[simp] theorem finishConstruction_smAcc (g : Generator) (a : Word) (s : State) : (finishConstruction g a s).smAcc = a := by rfl
@[simp] theorem finishConstruction_seeded (g : Generator) (a : Word) (s : State) : (finishConstruction g a s).seeded = true := by rfl
@[simp] theorem finishConstruction_fault (g : Generator) (a : Word) (s : State) : (finishConstruction g a s).fault = s.fault := by rfl
@[simp] theorem finishConstruction_errcode (g : Generator) (a : Word) (s : State) : (finishConstruction g a s).errcode = s.errcode := by rfl
@[simp] theorem finishConstruction_ctrl (g : Generator) (a : Word) (s : State) : (finishConstruction g a s).ctrl = .busy s.latSeed { status := statusBits .ok, data := config.noWordData } := by rfl
@[simp] theorem finishConstruction_statusPort (g : Generator) (a : Word) (s : State) : (finishConstruction g a s).statusPort = s.statusPort := by rfl
@[simp] theorem finishConstruction_inputs (g : Generator) (a : Word) (s : State) : (finishConstruction g a s).inputs = s.inputs := by rfl
@[simp] theorem finishConstruction_latSeed (g : Generator) (a : Word) (s : State) : (finishConstruction g a s).latSeed = s.latSeed := by rfl
@[simp] theorem finishConstruction_latNext (g : Generator) (a : Word) (s : State) : (finishConstruction g a s).latNext = s.latNext := by rfl
@[simp] theorem finishConstruction_latIllegal (g : Generator) (a : Word) (s : State) : (finishConstruction g a s).latIllegal = s.latIllegal := by rfl
@[simp] theorem finishConstruction_wasReset (g : Generator) (a : Word) (s : State) : (finishConstruction g a s).wasReset = s.wasReset := by rfl

/-! ### `finishSample` -/

@[simp] theorem finishSample_gen (g : Generator) (d : Word) (s : State) : (finishSample g d s).gen = g := by rfl
@[simp] theorem finishSample_smAcc (g : Generator) (d : Word) (s : State) : (finishSample g d s).smAcc = s.smAcc := by rfl
@[simp] theorem finishSample_seeded (g : Generator) (d : Word) (s : State) : (finishSample g d s).seeded = s.seeded := by rfl
@[simp] theorem finishSample_fault (g : Generator) (d : Word) (s : State) : (finishSample g d s).fault = s.fault := by rfl
@[simp] theorem finishSample_errcode (g : Generator) (d : Word) (s : State) : (finishSample g d s).errcode = s.errcode := by rfl
@[simp] theorem finishSample_ctrl (g : Generator) (d : Word) (s : State) : (finishSample g d s).ctrl = .busy s.latNext { status := statusBits .ok, data := d } := by rfl
@[simp] theorem finishSample_statusPort (g : Generator) (d : Word) (s : State) : (finishSample g d s).statusPort = s.statusPort := by rfl
@[simp] theorem finishSample_inputs (g : Generator) (d : Word) (s : State) : (finishSample g d s).inputs = s.inputs := by rfl
@[simp] theorem finishSample_latSeed (g : Generator) (d : Word) (s : State) : (finishSample g d s).latSeed = s.latSeed := by rfl
@[simp] theorem finishSample_latNext (g : Generator) (d : Word) (s : State) : (finishSample g d s).latNext = s.latNext := by rfl
@[simp] theorem finishSample_latIllegal (g : Generator) (d : Word) (s : State) : (finishSample g d s).latIllegal = s.latIllegal := by rfl
@[simp] theorem finishSample_wasReset (g : Generator) (d : Word) (s : State) : (finishSample g d s).wasReset = s.wasReset := by rfl

/-! ### `wait` -/

@[simp] theorem wait_gen (n : Nat) (r : Response) (s : State) : (s.wait n r).gen = s.gen := by rfl
@[simp] theorem wait_smAcc (n : Nat) (r : Response) (s : State) : (s.wait n r).smAcc = s.smAcc := by rfl
@[simp] theorem wait_seeded (n : Nat) (r : Response) (s : State) : (s.wait n r).seeded = s.seeded := by rfl
@[simp] theorem wait_fault (n : Nat) (r : Response) (s : State) : (s.wait n r).fault = s.fault := by rfl
@[simp] theorem wait_errcode (n : Nat) (r : Response) (s : State) : (s.wait n r).errcode = s.errcode := by rfl
@[simp] theorem wait_ctrl (n : Nat) (r : Response) (s : State) : (s.wait n r).ctrl = .busy n r := by rfl
@[simp] theorem wait_statusPort (n : Nat) (r : Response) (s : State) : (s.wait n r).statusPort = s.statusPort := by rfl
@[simp] theorem wait_inputs (n : Nat) (r : Response) (s : State) : (s.wait n r).inputs = s.inputs := by rfl
@[simp] theorem wait_latSeed (n : Nat) (r : Response) (s : State) : (s.wait n r).latSeed = s.latSeed := by rfl
@[simp] theorem wait_latNext (n : Nat) (r : Response) (s : State) : (s.wait n r).latNext = s.latNext := by rfl
@[simp] theorem wait_latIllegal (n : Nat) (r : Response) (s : State) : (s.wait n r).latIllegal = s.latIllegal := by rfl
@[simp] theorem wait_wasReset (n : Nat) (r : Response) (s : State) : (s.wait n r).wasReset = s.wasReset := by rfl

/-! ### `takeReset` -/

@[simp] theorem takeReset_gen (s : State) : (s.takeReset).gen = State.reset.gen := by rfl
@[simp] theorem takeReset_smAcc (s : State) : (s.takeReset).smAcc = State.reset.smAcc := by rfl
@[simp] theorem takeReset_seeded (s : State) : (s.takeReset).seeded = State.reset.seeded := by rfl
@[simp] theorem takeReset_fault (s : State) : (s.takeReset).fault = State.reset.fault := by rfl
@[simp] theorem takeReset_errcode (s : State) : (s.takeReset).errcode = State.reset.errcode := by rfl
@[simp] theorem takeReset_ctrl (s : State) : (s.takeReset).ctrl = State.reset.ctrl := by rfl
@[simp] theorem takeReset_statusPort (s : State) : (s.takeReset).statusPort = State.reset.statusPort := by rfl
@[simp] theorem takeReset_inputs (s : State) : (s.takeReset).inputs = s.inputs := by rfl
@[simp] theorem takeReset_latSeed (s : State) : (s.takeReset).latSeed = s.latSeed := by rfl
@[simp] theorem takeReset_latNext (s : State) : (s.takeReset).latNext = s.latNext := by rfl
@[simp] theorem takeReset_latIllegal (s : State) : (s.takeReset).latIllegal = s.latIllegal := by rfl
@[simp] theorem takeReset_wasReset (s : State) : (s.takeReset).wasReset = State.reset.wasReset := by rfl

/-! ### `present` -/

@[simp] theorem present_gen (r : Response) (s : State) : (s.present r).gen = s.gen := by rfl
@[simp] theorem present_smAcc (r : Response) (s : State) : (s.present r).smAcc = s.smAcc := by rfl
@[simp] theorem present_seeded (r : Response) (s : State) : (s.present r).seeded = s.seeded := by rfl
@[simp] theorem present_fault (r : Response) (s : State) : (s.present r).fault = s.fault := by rfl
@[simp] theorem present_errcode (r : Response) (s : State) : (s.present r).errcode = s.errcode := by rfl
@[simp] theorem present_ctrl (r : Response) (s : State) : (s.present r).ctrl = .responding r := by rfl
@[simp] theorem present_statusPort (r : Response) (s : State) : (s.present r).statusPort = s.flagsByte := by rfl
@[simp] theorem present_inputs (r : Response) (s : State) : (s.present r).inputs = s.inputs := by rfl
@[simp] theorem present_latSeed (r : Response) (s : State) : (s.present r).latSeed = s.latSeed := by rfl
@[simp] theorem present_latNext (r : Response) (s : State) : (s.present r).latNext = s.latNext := by rfl
@[simp] theorem present_latIllegal (r : Response) (s : State) : (s.present r).latIllegal = s.latIllegal := by rfl
@[simp] theorem present_wasReset (r : Response) (s : State) : (s.present r).wasReset = s.wasReset := by rfl

/-! ### `release` -/

@[simp] theorem release_gen (s : State) : (s.release).gen = s.gen := by rfl
@[simp] theorem release_smAcc (s : State) : (s.release).smAcc = s.smAcc := by rfl
@[simp] theorem release_seeded (s : State) : (s.release).seeded = s.seeded := by rfl
@[simp] theorem release_fault (s : State) : (s.release).fault = s.fault := by rfl
@[simp] theorem release_errcode (s : State) : (s.release).errcode = s.errcode := by rfl
@[simp] theorem release_ctrl (s : State) : (s.release).ctrl = .idle := by rfl
@[simp] theorem release_statusPort (s : State) : (s.release).statusPort = s.statusPort := by rfl
@[simp] theorem release_inputs (s : State) : (s.release).inputs = s.inputs := by rfl
@[simp] theorem release_latSeed (s : State) : (s.release).latSeed = s.latSeed := by rfl
@[simp] theorem release_latNext (s : State) : (s.release).latNext = s.latNext := by rfl
@[simp] theorem release_latIllegal (s : State) : (s.release).latIllegal = s.latIllegal := by rfl
@[simp] theorem release_wasReset (s : State) : (s.release).wasReset = s.wasReset := by rfl

/-! ### `nextInputs` -/

@[simp] theorem nextInputs_gen (s : State) : (s.nextInputs).gen = s.gen := by rfl
@[simp] theorem nextInputs_smAcc (s : State) : (s.nextInputs).smAcc = s.smAcc := by rfl
@[simp] theorem nextInputs_seeded (s : State) : (s.nextInputs).seeded = s.seeded := by rfl
@[simp] theorem nextInputs_fault (s : State) : (s.nextInputs).fault = s.fault := by rfl
@[simp] theorem nextInputs_errcode (s : State) : (s.nextInputs).errcode = s.errcode := by rfl
@[simp] theorem nextInputs_ctrl (s : State) : (s.nextInputs).ctrl = s.ctrl := by rfl
@[simp] theorem nextInputs_statusPort (s : State) : (s.nextInputs).statusPort = s.statusPort := by rfl
@[simp] theorem nextInputs_inputs (s : State) : (s.nextInputs).inputs = s.inputs.tail := by rfl
@[simp] theorem nextInputs_latSeed (s : State) : (s.nextInputs).latSeed = s.latSeed := by rfl
@[simp] theorem nextInputs_latNext (s : State) : (s.nextInputs).latNext = s.latNext := by rfl
@[simp] theorem nextInputs_latIllegal (s : State) : (s.nextInputs).latIllegal = s.latIllegal := by rfl
@[simp] theorem nextInputs_wasReset (s : State) : (s.nextInputs).wasReset = s.wasReset := by rfl

/-! ### `powerOn` -/

@[simp] theorem powerOn_gen (s : State) : (s.powerOn).gen = s.gen := by rfl
@[simp] theorem powerOn_smAcc (s : State) : (s.powerOn).smAcc = s.smAcc := by rfl
@[simp] theorem powerOn_seeded (s : State) : (s.powerOn).seeded = s.seeded := by rfl
@[simp] theorem powerOn_fault (s : State) : (s.powerOn).fault = s.fault := by rfl
@[simp] theorem powerOn_errcode (s : State) : (s.powerOn).errcode = s.errcode := by rfl
@[simp] theorem powerOn_ctrl (s : State) : (s.powerOn).ctrl = s.ctrl := by rfl
@[simp] theorem powerOn_statusPort (s : State) : (s.powerOn).statusPort = s.statusPort := by rfl
@[simp] theorem powerOn_inputs (s : State) : (s.powerOn).inputs = s.inputs := by rfl
@[simp] theorem powerOn_latSeed (s : State) : (s.powerOn).latSeed = s.latSeed := by rfl
@[simp] theorem powerOn_latNext (s : State) : (s.powerOn).latNext = s.latNext := by rfl
@[simp] theorem powerOn_latIllegal (s : State) : (s.powerOn).latIllegal = s.latIllegal := by rfl
@[simp] theorem powerOn_wasReset (s : State) : (s.powerOn).wasReset = false := by rfl

/-! ### The operations as one update each

A proof that rewrites with these, or takes them with `exact`, is checked without unfolding the words that are written; a `simp` or
`rfl` that unfolds `finishConstruction` on a warmed-up state makes the kernel run the warm-up on a variable. -/

theorem respond_eq (n : Nat) (k : StatusCode) (d : Word) (s : State) :
    respond n k d s = { s with ctrl := .busy n { status := statusBits k, data := d } } := by rfl

theorem raiseFault_eq (n : Nat) (k : StatusCode) (s : State) :
    raiseFault n k s =
      { s with
        fault := true
        errcode := statusBits k
        ctrl := .busy n { status := statusBits k, data := 0 } } := by rfl

theorem finishConstruction_eq (g : Generator) (a : Word) (s : State) :
    finishConstruction g a s =
      { s with
        gen := g
        smAcc := a
        seeded := true
        ctrl := .busy s.latSeed { status := 0, data := 0 } } := by rfl

theorem finishSample_eq (g : Generator) (d : Word) (s : State) :
    finishSample g d s =
      { s with
        gen := g
        ctrl := .busy s.latNext { status := 0, data := d } } := by rfl

/-! ### The state after reset (rule R150) -/

@[simp] theorem reset_gen : State.reset.gen = { fastLoop := 0, mix := 0, loopMix := 0 } := by rfl
@[simp] theorem reset_smAcc : State.reset.smAcc = 0 := by rfl
@[simp] theorem reset_seeded : State.reset.seeded = false := by rfl
@[simp] theorem reset_fault : State.reset.fault = false := by rfl
@[simp] theorem reset_errcode : State.reset.errcode = 0 := by rfl
@[simp] theorem reset_ctrl : State.reset.ctrl = .idle := by rfl
@[simp] theorem reset_statusPort : State.reset.statusPort = 0 := by rfl
@[simp] theorem reset_wasReset : State.reset.wasReset = true := by rfl

/-! ### What is read off the state -/

@[simp] theorem present_flagsByte (r : Response) (s : State) : (s.present r).flagsByte = s.flagsByte := by rfl
@[simp] theorem release_flagsByte (s : State) : s.release.flagsByte = s.flagsByte := by rfl
@[simp] theorem nextInputs_flagsByte (s : State) : s.nextInputs.flagsByte = s.flagsByte := by rfl
@[simp] theorem respond_flagsByte (n : Nat) (k : StatusCode) (d : Word) (s : State) :
    (respond n k d s).flagsByte = s.flagsByte := by rfl
@[simp] theorem present_rspPort (r : Response) (s : State) : (s.present r).rspPort = some r := by rfl
@[simp] theorem release_rspPort (s : State) : s.release.rspPort = none := by rfl
@[simp] theorem respond_rspPort (n : Nat) (k : StatusCode) (d : Word) (s : State) :
    (respond n k d s).rspPort = none := by rfl
@[simp] theorem respond_held (n : Nat) (k : StatusCode) (d : Word) (s : State) :
    (respond n k d s).held = some { status := statusBits k, data := d } := by rfl
@[simp] theorem raiseFault_held (n : Nat) (k : StatusCode) (s : State) :
    (raiseFault n k s).held = some { status := statusBits k, data := config.noWordData } := by rfl

@[simp] theorem finishSample_held (g : Generator) (d : Word) (s : State) :
    (finishSample g d s).held = some { status := statusBits .ok, data := d } := by rfl
@[simp] theorem finishConstruction_held (g : Generator) (a : Word) (s : State) :
    (finishConstruction g a s).held = some { status := statusBits .ok, data := config.noWordData } := by rfl

end Sys2Proof.Machine
end

