-- ==== Sys2Proof/Laws/Ops.lean ====
section
/-!
SUPPORT. What each shared operation and one edge can do, said once: later proofs cite these instead of unfolding the step.
-/

namespace Sys2Proof.Machine

/-! ### The check every command starts with (rule R134) -/

theorem unlessFaulted_of_fault {s : State} (h : s.fault = true) (n : Nat) (body : State → State) :
    unlessFaulted n body s = respond n .faulted config.noWordData s := by
  simp [unlessFaulted, h]

theorem unlessFaulted_of_noFault {s : State} (h : s.fault = false) (n : Nat) (body : State → State) :
    unlessFaulted n body s = body s := by
  simp [unlessFaulted, h]

/-- A command either answers Faulted or does its body on a state with `FAULT = 0`. -/
theorem unlessFaulted_cases (n : Nat) (body : State → State) (s : State) :
    (s.fault = true ∧ unlessFaulted n body s = respond n .faulted config.noWordData s) ∨
      (s.fault = false ∧ unlessFaulted n body s = body s) := by
  cases h : s.fault
  · exact .inr ⟨rfl, unlessFaulted_of_noFault h n body⟩
  · exact .inl ⟨rfl, unlessFaulted_of_fault h n body⟩

/-! ### Accepting a command -/

theorem accept_of_decode {w : Byte} {opd : Operands} {i : Instr} (h : decode w opd = some i) (s : State) :
    accept w opd s = exec i s := by
  simp [accept, h]

theorem accept_of_illegal {w : Byte} {opd : Operands} (h : decode w opd = none) (s : State) :
    accept w opd s = .next (takeIllegal s) := by
  simp [accept, h]

/-- Decoding fails exactly on the words that spell no command (rule R69). -/
theorem decode_eq_none_iff (w : Byte) (opd : Operands) : decode w opd = none ↔ decodeWord w = .illegal := by
  unfold decode assembleOperands
  cases decodeWord w <;> simp

/-- The latency of an instruction's class (rule R61). -/
def instrLatency (i : Instr) (s : State) : Nat := if isConstruction i then s.latSeed else s.latNext

/-- The data an instruction that samples answers with (rule R66). -/
def sampleView (i : Instr) (w : Word) : Word := if i = .nextU32 then highHalf w else w

/-- What running an instruction comes to: Faulted, one of the three errors with its cause, a construction, or a sample. -/
theorem exec_cases (i : Instr) (s : State) :
    ∃ t, exec i s = .next t ∧
      ((s.fault = true ∧ t = respond (instrLatency i s) .faulted config.noWordData s) ∨
        (s.fault = false ∧ isConstruction i = false ∧ s.seeded = false ∧
          t = raiseFault (instrLatency i s) .notSeeded s) ∨
        (s.fault = false ∧ (∃ seed k n, i = .seedStream seed k n ∧ n = 0) ∧
          t = raiseFault (instrLatency i s) .invalidStreamCount s) ∨
        (s.fault = false ∧ (∃ seed k n, i = .seedStream seed k n ∧ n ≠ 0 ∧ n.toNat ≤ k.toNat) ∧
          t = raiseFault (instrLatency i s) .invalidStreamIndex s) ∨
        (s.fault = false ∧ isConstruction i = true ∧
          (∀ seed k n, i = .seedStream seed k n → n ≠ 0 ∧ k.toNat < n.toNat) ∧
          ∃ g a, t = finishConstruction g a s) ∨
        (s.fault = false ∧ s.seeded = true ∧ isConstruction i = false ∧
          t = finishSample (coreStep config s.gen).2 (sampleView i (coreStep config s.gen).1) s)) := by
  rcases Bool.eq_false_or_eq_true s.fault with hf | hf
  · cases i <;> exact ⟨_, rfl, .inl ⟨hf, unlessFaulted_of_fault hf _ _⟩⟩
  · cases i
    case seedU64 seed =>
      exact ⟨_, rfl, .inr (.inr (.inr (.inr (.inl
        ⟨hf, rfl, (by intro _ _ _ h; cases h), _, _, unlessFaulted_of_noFault hf _ _⟩))))⟩
    case seedBytes bytes =>
      exact ⟨_, rfl, .inr (.inr (.inr (.inr (.inl
        ⟨hf, rfl, (by intro _ _ _ h; cases h), _, _, unlessFaulted_of_noFault hf _ _⟩))))⟩
    case seedStream seed k n =>
      refine ⟨_, rfl, ?_⟩
      rw [unlessFaulted_of_noFault hf, constructCheckedStream]
      by_cases hn : n = 0
      · rw [if_pos hn]
        exact .inr (.inr (.inl ⟨hf, ⟨_, _, _, rfl, hn⟩, rfl⟩))
      · rw [if_neg hn]
        by_cases hk : k.toNat ≥ n.toNat
        · rw [if_pos hk]
          exact .inr (.inr (.inr (.inl ⟨hf, ⟨_, _, _, rfl, hn, hk⟩, rfl⟩)))
        · rw [if_neg hk]
          refine .inr (.inr (.inr (.inr (.inl ⟨hf, rfl, ?_, _, _, rfl⟩))))
          intro _ _ _ h
          cases h
          exact ⟨hn, by omega⟩
    case nextU64 =>
      refine ⟨_, rfl, ?_⟩
      rw [unlessFaulted_of_noFault hf, sample]
      rcases Bool.eq_false_or_eq_true s.seeded with hs | hs
      · rw [if_pos hs]
        exact .inr (.inr (.inr (.inr (.inr ⟨hf, hs, rfl, by rw [sampleView, if_neg (by decide)]; rfl⟩))))
      · rw [if_neg (by rw [hs]; decide)]
        exact .inr (.inl ⟨hf, rfl, hs, rfl⟩)
    case nextU32 =>
      refine ⟨_, rfl, ?_⟩
      rw [unlessFaulted_of_noFault hf, sample]
      rcases Bool.eq_false_or_eq_true s.seeded with hs | hs
      · rw [if_pos hs]
        exact .inr (.inr (.inr (.inr (.inr ⟨hf, hs, rfl, by rw [sampleView, if_pos rfl]⟩))))
      · rw [if_neg (by rw [hs]; decide)]
        exact .inr (.inl ⟨hf, rfl, hs, rfl⟩)

/-- A decoded instruction's class latency is that of its word (rules R61, R69). -/
theorem latencyOf_of_decode {w : Byte} {opd : Operands} {i : Instr} (h : decode w opd = some i) (s : State) :
    latencyOf w s = instrLatency i s := by
  unfold decode assembleOperands at h
  unfold latencyOf
  cases hw : decodeWord w <;> simp only [hw] at h
  case illegal => cases h
  all_goals
    injection h with h
    subst h
    rfl

theorem latencyOf_of_illegal {w : Byte} (h : decodeWord w = .illegal) (s : State) :
    latencyOf w s = s.latIllegal := by
  rw [latencyOf, h]

/-- What accepting a word comes to: an instruction run, or a word that spells none answered. -/
theorem accept_cases (w : Byte) (opd : Operands) (s : State) :
    (∃ i, decode w opd = some i ∧ accept w opd s = exec i s) ∨
      (decodeWord w = .illegal ∧ s.fault = true ∧
        accept w opd s = .next (respond s.latIllegal .faulted config.noWordData s)) ∨
      (decodeWord w = .illegal ∧ s.fault = false ∧
        accept w opd s = .next (raiseFault s.latIllegal .illegalCommand s)) := by
  cases h : decode w opd with
  | some i => exact .inl ⟨i, rfl, accept_of_decode h s⟩
  | none =>
    have hw := (decode_eq_none_iff w opd).1 h
    rw [accept_of_illegal h, takeIllegal]
    rcases unlessFaulted_cases s.latIllegal (raiseFault s.latIllegal .illegalCommand) s with ⟨hf, e⟩ | ⟨hf, e⟩
    · exact .inr (.inl ⟨hw, hf, by rw [e]⟩)
    · exact .inr (.inr ⟨hw, hf, by rw [e]⟩)

/-- A machine's run of `n + 1` steps is a step and a run of `n`. -/
theorem coreRun_succ (M : Host.Core) (n : Nat) {s t : M.State} (h : M.step s = .next t) :
    M.run (n + 1) s = M.run n t := by
  rw [Host.Core.run, h]

/-- A run of `n + 1` edges is an edge and a run of `n`. -/
theorem run_succ {s t : State} (n : Nat) (h : step s = .next t) : core.run (n + 1) s = core.run n t :=
  coreRun_succ core n h

theorem run_zero (s : State) : core.run 0 s = .next s := rfl

/-! ### One edge -/

theorem step_of_rst {s : State} (h : s.pins.rst = true) : step s = .next s.nextInputs.takeReset := by
  simp [step, clockEdge, h]

theorem step_of_running {s : State} (h : s.pins.rst = false) (hw : s.wasReset = true) :
    step s = runEdge s.pins s.nextInputs := by
  simp [step, clockEdge, h, hw]

theorem step_of_unreset {s : State} (h : s.pins.rst = false) (hw : s.wasReset = false) :
    step s = .fault .beforeFirstReset := by
  simp [step, clockEdge, h, hw]

theorem runEdge_idle {s : State} (h : s.ctrl = .idle) (p : Pins) :
    runEdge p s = if p.cmdValid then accept p.cmdWord p.cmdOpd s else .next s := by
  simp [runEdge, h]

theorem runEdge_busy {s : State} {n : Nat} {r : Response} (h : s.ctrl = .busy n r) (p : Pins) :
    runEdge p s = .next (if n ≤ 1 then s.present r else s.wait (n - 1) r) := by
  simp [runEdge, h]

theorem runEdge_responding {s : State} {r : Response} (h : s.ctrl = .responding r) (p : Pins) :
    runEdge p s = .next (if p.rspReady then s.release else s) := by
  simp [runEdge, h]

/-- Everything one edge can do. -/
theorem step_cases {s t : State} (h : step s = .next t) :
    (s.pins.rst = true ∧ t = s.nextInputs.takeReset) ∨
      (s.pins.rst = false ∧ s.wasReset = true ∧
        ((s.ctrl = .idle ∧ s.pins.cmdValid = true ∧
            accept s.pins.cmdWord s.pins.cmdOpd s.nextInputs = .next t) ∨
          (s.ctrl = .idle ∧ s.pins.cmdValid = false ∧ t = s.nextInputs) ∨
          (∃ n r, s.ctrl = .busy n r ∧ n ≤ 1 ∧ t = s.nextInputs.present r) ∨
          (∃ n r, s.ctrl = .busy n r ∧ 1 < n ∧ t = s.nextInputs.wait (n - 1) r) ∨
          (∃ r, s.ctrl = .responding r ∧ s.pins.rspReady = true ∧ t = s.nextInputs.release) ∨
          (∃ r, s.ctrl = .responding r ∧ s.pins.rspReady = false ∧ t = s.nextInputs))) := by
  cases hr : s.pins.rst with
  | true =>
    rw [step_of_rst hr] at h
    injection h with h
    exact .inl ⟨rfl, h.symm⟩
  | false =>
    cases hw : s.wasReset with
    | false => rw [step_of_unreset hr hw] at h; cases h
    | true =>
      rw [step_of_running hr hw] at h
      refine .inr ⟨rfl, rfl, ?_⟩
      cases hc : s.ctrl with
      | idle =>
        rw [runEdge_idle (by simpa using hc)] at h
        cases hv : s.pins.cmdValid with
        | true => exact .inl ⟨rfl, rfl, by simpa [hv] using h⟩
        | false =>
          simp only [hv, Bool.false_eq_true, if_false] at h
          injection h with h
          exact .inr (.inl ⟨rfl, rfl, h.symm⟩)
      | busy n r =>
        rw [runEdge_busy (n := n) (r := r) (by simpa using hc)] at h
        injection h with h
        by_cases hn : n ≤ 1
        · exact .inr (.inr (.inl ⟨n, r, rfl, hn, by rw [← h, if_pos hn]⟩))
        · exact .inr (.inr (.inr (.inl ⟨n, r, rfl, by omega, by rw [← h, if_neg hn]⟩)))
      | responding r =>
        rw [runEdge_responding (r := r) (by simpa using hc)] at h
        injection h with h
        cases hy : s.pins.rspReady with
        | true => exact .inr (.inr (.inr (.inr (.inl ⟨r, rfl, rfl, by rw [← h, hy]; rfl⟩))))
        | false => exact .inr (.inr (.inr (.inr (.inr ⟨r, rfl, rfl, by rw [← h, hy]; rfl⟩))))

end Sys2Proof.Machine
end

