-- ==== Sys2Proof/Laws/HostSide.lean ====
section
/-!
SUPPORT. What a transaction, a sequence of host actions and FILL can do, said once.
-/

namespace Sys2Proof.Machine

theorem canTransact_iff (s : State) : s.canTransact = true ↔ s.wasReset = true ∧ s.ctrl = .idle := by
  simp [State.canTransact]

theorem canTransact_eq_false_iff (s : State) : s.canTransact = false ↔ s.wasReset = false ∨ s.ctrl ≠ .idle := by
  rw [← Bool.not_eq_true, canTransact_iff]
  cases s.wasReset <;> simp

/-- After reset a command can be sent. -/
@[simp] theorem canTransact_takeReset (s : State) : s.takeReset.canTransact = true := by rfl

/-- No transaction before the first reset or while a command is in progress (log 26). -/
theorem transact_of_cannot {s : State} (h : s.canTransact = false) (w : Byte) (opd : Operands) :
    transact w opd s = none := by
  simp [transact, h]

/-- A transaction is what acceptance leaves, with its response presented and taken. -/
theorem transact_of_accept {s t : State} {w : Byte} {opd : Operands} {n : Nat} {r : Response}
    (h : s.canTransact = true) (ha : accept w opd s = .next t) (hc : t.ctrl = .busy n r) :
    transact w opd s = some ((t.present r).release, r) := by
  simp [transact, h, ha, hc]

/-- Everything a transaction with a result can be. -/
theorem transact_cases {s u : State} {w : Byte} {opd : Operands} {r : Response} (h : transact w opd s = some (u, r)) :
    s.canTransact = true ∧ ∃ t n, accept w opd s = .next t ∧ t.ctrl = .busy n r ∧ u = (t.present r).release := by
  cases hs : s.canTransact with
  | false => rw [transact_of_cannot hs] at h; cases h
  | true =>
    rw [transact, if_pos hs] at h
    split at h
    · next t ht =>
      split at h
      · next n r' hc =>
        obtain ⟨rfl, rfl⟩ := Prod.mk.inj (Option.some.inj h)
        exact ⟨rfl, t, n, ht, hc, rfl⟩
      · cases h
      · cases h
    · cases h
    · cases h

theorem hostRun_nil (s : State) : hostRun [] s = some (s, []) := by rfl

theorem hostRun_reset (as : List HostAction) (s : State) : hostRun (.reset :: as) s = hostRun as s.takeReset := by rfl

/-- A command that cannot be sent ends the sequence without a result. -/
theorem hostRun_of_cannot {s : State} (h : s.canTransact = false) (w : Byte) (opd : Operands) (as : List HostAction) :
    hostRun (.send w opd :: as) s = none := by
  rw [hostRun, transact_of_cannot h]

/-- A command that is answered, then the rest. -/
theorem hostRun_send {s t : State} {w : Byte} {opd : Operands} {r : Response} (h : transact w opd s = some (t, r))
    (as : List HostAction) :
    hostRun (.send w opd :: as) s = (hostRun as t).map fun x => (x.1, r :: x.2) := by
  rw [hostRun, h]
  dsimp only
  cases hostRun as t <;> rfl

/-- A command of FILL that cannot be sent leaves FILL without a result. -/
theorem fillLoop_of_cannot {s : State} (h : s.canTransact = false) (n c j : Nat) (buffer : List Byte) :
    fillLoop n (c + 1) j buffer s = none := by
  rw [fillLoop, transact_of_cannot h]

end Sys2Proof.Machine
end

