-- ==== Sys2Proof/Laws/PerInstr.lean ====
section
/-!
SUPPORT. Statements made per instruction. Family CommandWord: the command word of an instruction has `RSVD = 0` (rule R62) and
names the instruction's own operation (rule R64).
-/

namespace Sys2Proof.Laws.CommandWord

/-- The word of `i` is legal and spells the operation of `i` (rules R62, R64). -/
def Statement (i : Instr) : Prop :=
  rsvdField (encodeWord i) = 0 ∧ decodeWord (encodeWord i) = i.name ∧ i.name ≠ .illegal

/-- The word of a named operation has `RSVD = 0` and spells that operation. -/
theorem encodeName_legal (n : CommandName) (h : n ≠ .illegal) :
    rsvdField (encodeName n) = 0 ∧ decodeWord (encodeName n) = n ∧ n ≠ .illegal := by
  cases n
  case illegal => exact absurd rfl h
  all_goals decide

theorem seedU64 (seed : Word) : Statement (.seedU64 seed) := encodeName_legal .seedU64 (by decide)

theorem seedBytes (bytes : List Byte) : Statement (.seedBytes bytes) := encodeName_legal .seedBytes (by decide)

theorem seedStream (seed streamIndex totalStreams : Word) :
    Statement (.seedStream seed streamIndex totalStreams) := encodeName_legal .seedStream (by decide)

theorem nextU64 : Statement .nextU64 := encodeName_legal .nextU64 (by decide)

theorem nextU32 : Statement .nextU32 := encodeName_legal .nextU32 (by decide)

end Sys2Proof.Laws.CommandWord
end

