-- ==== Sys2Proof/Laws/Platform.lean ====
section
/-!
SUPPORT. What an edge of one unit can do to a platform, said once over the list of its units.
-/

namespace Sys2Proof.Machine

/-- `N_INSTANCES` is at least 1 (rules R8, R146). -/
theorem one_le_instances (p : Platform) : 1 ≤ p.instances := by
  simp [Platform.instances, Platform.units]

@[simp] theorem units_setUnit (k : Nat) (t : State) (p : Platform) : (p.setUnit k t).units = p.units.set k t := by
  cases k <;> rfl

/-- No edge adds or removes a unit. -/
@[simp] theorem instances_setUnit (k : Nat) (t : State) (p : Platform) :
    (p.setUnit k t).instances = p.instances := by
  simp [Platform.instances]

/-- A platform is its list of units. -/
theorem platform_ext_units {p q : Platform} (h : p.units = q.units) : p = q := by
  obtain ⟨a, as⟩ := p
  obtain ⟨b, bs⟩ := q
  obtain ⟨rfl, rfl⟩ := List.cons.inj h
  rfl

/-- The edge of a unit that is there, when it has a next state. -/
theorem stepUnit_of_next {k : Nat} {p : Platform} {s t : State} (hs : p.units[k]? = some s) (ht : step s = .next t) :
    p.stepUnit k = .next (p.setUnit k t) := by
  simp [Platform.stepUnit, hs, ht]

/-- The edge of a unit that is not there. -/
theorem stepUnit_of_absent {k : Nat} {p : Platform} (h : p.units[k]? = none) : p.stepUnit k = .next p := by
  rw [Platform.stepUnit, h]

/-- Everything an edge with a next state can be: one of an absent unit, or the unit's own step. -/
theorem stepUnit_cases {k : Nat} {p q : Platform} (h : p.stepUnit k = .next q) :
    (p.units[k]? = none ∧ q = p) ∨ ∃ s t, p.units[k]? = some s ∧ step s = .next t ∧ q = p.setUnit k t := by
  unfold Platform.stepUnit at h
  split at h
  · next hk => exact .inl ⟨hk, by cases h; rfl⟩
  · next s hk =>
    split at h
    · next t ht => exact .inr ⟨s, t, hk, ht, by cases h; rfl⟩
    · cases h
    · cases h

end Sys2Proof.Machine
end

