-- ==== Sys2Proof/Tests/Slice0.lean ====
section
/-!
SUPPORT. Tests of the model against spec/95_test_vectors.md, the smoke test of WellFormed, and, for every statement with hypotheses, a
witness that meets them. Expected values are the spec's vectors, named beside each test.
-/

namespace Sys2Proof.Tests

open Sys2Proof.Machine

/-! ### States the tests start from -/

/-- A block in mode READY, in the "before" state of V-T1. -/
def readyState : State :=
  { State.reset with gen := { fastLoop := 0, mix := 1, loopMix := 0 }, seeded := true, statusPort := 0x01 }

/-- A block in mode FAULTED after an illegal first command (V-D2). -/
def faultedState : State := { State.reset with fault := true, errcode := 4, statusPort := 0x12 }

/-- A state whose coming edge offers a command. -/
def offering (w : Byte) (opd : Operands) (s : State) : State := { s with inputs := [offerPins w opd] }

/-- The state in which a response is presented, with the levels of the coming edge. -/
def presenting (p : Pins) : State := { readyState with ctrl := .responding { status := 0, data := 7 }, inputs := [p] }

/-- The next state of an outcome, if it has one. -/
def nextOf (o : Host.Outcome State Fault Refusal) : Option State :=
  match o with
  | .next t => some t
  | .fault _ => none
  | .refused _ => none

/-- The response an outcome's state holds. -/
def heldOf (o : Host.Outcome State Fault Refusal) : Option Response := (nextOf o).bind State.held

/-- A 32-byte seed whose first eight bytes are those of 12345 (V-B1). -/
def bytes12345 : List Byte := [0x39, 0x30, 0, 0, 0, 0, 0, 0] ++ List.replicate 24 0xa0

/-- The same first eight bytes, the others different. -/
def otherBytes12345 : List Byte := [0x39, 0x30, 0, 0, 0, 0, 0, 0] ++ List.replicate 24 0xb7

/-! ### WellFormed (rule R70) -/

/-- A byte seed of 31 bytes is refused. -/
theorem test_wellFormed_refuses_short_seed : (Instr.seedBytes (List.replicate 31 0)).wellFormed = false := by decide

/-- A byte seed of 33 bytes is refused, one of 32 accepted. -/
theorem test_wellFormed_wants_thirty_two_bytes :
    (Instr.seedBytes (List.replicate 33 0)).wellFormed = false ∧
      (Instr.seedBytes (List.replicate 32 0)).wellFormed = true := by decide

/-! ### Decoding: words written out from rules R62 to R64 and R72 -/

theorem test_decode_seedU64 : decode 0b00000001#8 0x3039 = some (.seedU64 12345) := by decide

theorem test_decode_seedBytes :
    decode 0b00000010#8 0xb7b6b5b4b3b2b1b0afaeadacabaaa9a8a7a6a5a4a3a2a1a00000000000003039 =
      some (.seedBytes [0x39, 0x30, 0, 0, 0, 0, 0, 0, 0xa0, 0xa1, 0xa2, 0xa3, 0xa4, 0xa5, 0xa6, 0xa7,
        0xa8, 0xa9, 0xaa, 0xab, 0xac, 0xad, 0xae, 0xaf, 0xb0, 0xb1, 0xb2, 0xb3, 0xb4, 0xb5, 0xb6, 0xb7]) := by decide

theorem test_decode_seedStream :
    decode 0b00000011#8 0x0000000000000000000000000000000400000000000000010000000000003039 =
      some (.seedStream 12345 1 4) := by decide

theorem test_decode_nextU64 : decode 0b00000100#8 0 = some .nextU64 := by decide

theorem test_decode_nextU32 : decode 0b00000101#8 0 = some .nextU32 := by decide

/-- V-D1: no other of the 256 words is legal. -/
theorem test_decode_legal_words :
    ((List.range 256).filter fun w => decodeWord (BitVec.ofNat 8 w) != .illegal) = [1, 2, 3, 4, 5] := by
  decide +kernel

/-- The table's 8-bit words, operand bits 0. -/
theorem test_decodeTableWord :
    decodeTableWord 8 0x03 = some (.seedStream 0 0 0) ∧ decodeTableWord 8 0x13 = none ∧
      decodeTableWord 72 0x303901 = some (.seedU64 0x3039) := by decide

/-! ### Vectors of spec/95_test_vectors.md -/

/-- V-E1, seed 12345, draw 1. -/
theorem test_expander_draw : smNext config 12345 = (0x22118258a9d111a0, 0x9e3779b97f4aac4e) := by decide

/-- V-T12. -/
theorem test_step_general :
    coreStep config { fastLoop := 0x0123456789abcdef, mix := 0xfedcba9876543210, loopMix := 0x0f0f0f0f0f0f0f0f } =
      (0x0debc9a78563411f,
        { fastLoop := 0x9abcdf0123456788, mix := 0xc9a7856341200deb, loopMix := 0xffffffffffffffff }) := by decide

/-- V-C1. -/
theorem test_seedU64 :
    (nextOf (exec (.seedU64 12345) State.reset)).map (fun t => (t.gen, t.smAcc, t.seeded, t.held)) =
      some ({ fastLoop := 0xb833f1561a800bad, mix := 0x259fd5d396646821, loopMix := 0x08fdeabeae1c52f9 },
        0xdaa66d2c7ddfa478, true, some { status := 0, data := 0 }) := by decide +kernel

/-- V-C5: a drawn zero word is no reason to redraw. -/
theorem test_seedU64_zero_word :
    drawState config 0x255992d382208bc1 =
      { gen := { fastLoop := 0, mix := 0x61bc8ea8124999d4, loopMix := 0x336503c6b835bec0 }, smAcc := 0 } := by
  decide +kernel

/-- V-B1, with bytes 8 to 31 arbitrary. -/
theorem test_seedBytes :
    (nextOf (exec (.seedBytes bytes12345) State.reset)).map (fun t => t.gen) =
      some { fastLoop := 0xb833f1561a800bad, mix := 0x259fd5d396646821, loopMix := 0x08fdeabeae1c52f9 } := by
  decide +kernel

/-- V-S2. -/
theorem test_seedStream :
    (nextOf (exec (.seedStream 12345 1 4) State.reset)).map (fun t => (t.gen, t.smAcc)) =
      some ({ fastLoop := 0x5e9a57bc80e67214, mix := 0x59e620147c74eedb, loopMix := 0x77972155cac3bd4a },
        0xdaa66d2c7ddfa478) := by decide +kernel

/-- V-S6: the largest legal index and count. -/
theorem test_seedStream_extreme :
    (nextOf (exec (.seedStream 12345 0xfffffffffffffffe 0xffffffffffffffff) State.reset)).map (fun t => t.gen) =
      some { fastLoop := 0x8500be22e74cd87b, mix := 0x1b571c2af4dcd241, loopMix := 0x6b163a7babd5eb94 } := by
  decide +kernel

/-- V-T1 through NEXT_U64. -/
theorem test_nextU64 :
    (nextOf (exec .nextU64 readyState)).map (fun t => (t.gen, t.held)) =
      some ({ fastLoop := 0x9999999999999999, mix := 0x10000, loopMix := 1 }, some { status := 0, data := 1 }) := by
  decide

/-- V-X1: sampling before construction. -/
theorem test_nextU64_notSeeded :
    (nextOf (exec .nextU64 State.reset)).map (fun t => (t.seeded, t.fault, t.errcode, t.flagsByte, t.held)) =
      some (false, true, 3, 0x0e, some { status := 3, data := 0 }) := by decide

/-- V-N2, from V-T10's state before. -/
theorem test_nextU32 :
    heldOf (exec .nextU32 { readyState with
      gen := { fastLoop := 0xffffffffffffffff, mix := 0xffffffffffffffff, loopMix := 0xffffffffffffffff } }) =
      some { status := 0, data := 0x00000000ffffffff } := by decide

/-- V-X9 and V-X10: IllegalCommand comes before InvalidStreamCount, and that before InvalidStreamIndex. -/
theorem test_priority :
    heldOf (accept 0x13 0x3039 State.reset) = some { status := 4, data := 0 } ∧
      heldOf (exec (.seedStream 12345 5 0) State.reset) = some { status := 1, data := 0 } := by decide

/-- V-F1, n = 13: the bytes FILL writes after SEED_U64 12345. -/
theorem test_fill :
    (hostFill 13 { readyState with
      gen := { fastLoop := 0xb833f1561a800bad, mix := 0x259fd5d396646821, loopMix := 0x08fdeabeae1c52f9 } }).map
        (fun x => x.2) =
      some [0x1a, 0xbb, 0x80, 0x44, 0x92, 0xc0, 0x9d, 0x2e, 0xd9, 0x47, 0xf0, 0xf2, 0xf2] := by decide +kernel

/-- Rule R70: comment, hexadecimal and decimal; an operand of 65 bits and a wrong count are refused. -/
theorem test_assembler :
    assembleLine "SEED_STREAM 12345, 0x1, 4 ; stream".toList = .line (.command (.seedStream 12345 1 4)) ∧
      assembleLine "SEED_U64 0x10000000000000000".toList = .refused ∧
      assembleLine "SEED_STREAM 1, 2".toList = .refused ∧
      assembleLine "FILL 13".toList = .line (.fill 13) ∧ assembleLine "  ; nothing".toList = .blank := by
  decide +kernel

/-- The word offered by withFetchWord is run by the very next step (V-D1). -/
theorem test_step_fetches :
    (nextOf (step (State.reset.withFetchWord 8 0x04))).bind State.held = some { status := 3, data := 0 } := by decide

/-! ### Witnesses: the hypotheses of each statement are met -/

theorem witness_ExpanderWordsDoNotRepeat :
    (5 : Nat) < 2 ^ 64 ∧ (smNext config (accAfter config 5 0)).1 = (smNext config (accAfter config 5 0)).1 := by
  decide +kernel

theorem witness_FastLoopVisitsEveryValue : advance config 0 readyState.gen = readyState.gen := by rw [advance]

/-- The two ends of the range of counts and indexes. -/
theorem witness_StreamOffsetFollowsItsFormula :
    (1 ≤ (1 : Word).toNat ∧ (0 : Word).toNat < (1 : Word).toNat) ∧
      1 ≤ (0xffffffffffffffff : Word).toNat ∧
        (0xfffffffffffffffe : Word).toNat < (0xffffffffffffffff : Word).toNat := by decide

theorem witness_StreamOffsetsAreEvenlySpacedAndDistinct :
    (3 : Word).toNat < (4 : Word).toNat ∧ streamOffset config 3 4 = streamOffset config 3 4 := by decide

theorem witness_SeedU64Constructs : State.reset.fault = false ∧ faultedState.fault = true := by decide

theorem witness_SeedBytesConstructs :
    bytes12345.length = 32 ∧ State.reset.fault = false ∧ faultedState.fault = true := by decide

theorem witness_SeedStreamConstructs :
    readyState.fault = false ∧ (0 : Word).toNat < (1 : Word).toNat ∧
      (0xfffffffffffffffe : Word).toNat < (0xffffffffffffffff : Word).toNat := by decide

/-- Count 0; index equal to the count, at the smallest and at the largest count; and the fault state. -/
theorem witness_SeedStreamChecksItsPreconditions :
    (State.reset.fault = false ∧ (0 : Word) = 0) ∧
      (1 ≤ (1 : Word).toNat ∧ (1 : Word).toNat ≤ (1 : Word).toNat) ∧
      (1 ≤ (0xffffffffffffffff : Word).toNat ∧
        (0xffffffffffffffff : Word).toNat ≤ (0xffffffffffffffff : Word).toNat) ∧
      faultedState.fault = true := by decide

theorem witness_ByteSeedIsLittleEndian :
    bytes12345.length = 32 ∧ otherBytes12345.length = 32 ∧ bytes12345 ≠ otherBytes12345 ∧
      (∀ k ∈ List.range 8, otherBytes12345[k]? = bytes12345[k]?) ∧ (0 < 32 ∧ 31 < 32) ∧ (0 < 8 ∧ 7 < 8) := by
  decide

theorem witness_StreamZeroIsTheSingleStream : (1 : Word) ≠ 0 ∧ (0xffffffffffffffff : Word) ≠ 0 := by decide

theorem witness_ConstructionIgnoresTheEarlierState :
    isConstruction (.seedU64 7) = true ∧ State.reset.fault = false ∧ readyState.fault = false ∧
      ∃ t t', exec (.seedU64 7) State.reset = .next t ∧ exec (.seedU64 7) readyState = .next t' ∧ t.fault = false :=
  ⟨rfl, rfl, rfl, _, _, rfl, rfl, rfl⟩

theorem witness_NoConstructionLeavesTheAllZeroState :
    isConstruction (.seedStream 7 1 2) = true ∧ State.reset.fault = false ∧
      ∃ t, exec (.seedStream 7 1 2) State.reset = .next t ∧ t.fault = false :=
  ⟨rfl, rfl, _, rfl, rfl⟩

/-- A construction that succeeds and one that raises a fault. -/
theorem witness_ConstructionFrame :
    (∃ t, exec (.seedU64 7) readyState = .next t ∧ t.fault = false) ∧
      ∃ t, exec (.seedStream 7 2 2) readyState = .next t ∧ t.fault = true :=
  ⟨⟨_, rfl, rfl⟩, _, rfl, rfl⟩

theorem witness_NextU64Samples :
    (readyState.fault = false ∧ readyState.seeded = true) ∧
      (State.reset.fault = false ∧ State.reset.seeded = false) ∧ faultedState.fault = true := by decide

theorem witness_NextU32Samples :
    (readyState.fault = false ∧ readyState.seeded = true) ∧
      (State.reset.fault = false ∧ State.reset.seeded = false) ∧ faultedState.fault = true := by decide

theorem witness_SamplingFrame :
    isConstruction .nextU64 = false ∧ isConstruction .nextU32 = false ∧
      (readyState.mode = .ready ∧ ∃ t, exec .nextU64 readyState = .next t) ∧
      (State.reset.mode ≠ .ready ∧ ∃ t, exec .nextU32 State.reset = .next t) ∧
      (faultedState.mode ≠ .ready ∧ ∃ t, exec .nextU32 faultedState = .next t) :=
  ⟨rfl, rfl, ⟨rfl, _, rfl⟩, ⟨by decide, _, rfl⟩, by decide, _, rfl⟩

theorem witness_UnseededSamplingRaisesNotSeeded : State.reset.fault = false ∧ State.reset.seeded = false := by decide

/-- One word for each way of being illegal, at the ends of the ranges of OP. -/
theorem witness_IllegalWordsRaiseIllegalCommand :
    (0x14 : Byte).extractLsb' 4 4 ≠ 0 ∧ (0x00 : Byte).extractLsb' 0 4 = 0 ∧
      6 ≤ ((0x06 : Byte).extractLsb' 0 4).toNat ∧ 6 ≤ ((0x0f : Byte).extractLsb' 0 4).toNat ∧
      State.reset.fault = false := by decide

theorem witness_FaultEntryIsPrecise :
    readyState.fault = false ∧ ∃ t, accept 0x00 0 readyState = .next t ∧ t.fault = true :=
  ⟨rfl, _, rfl, rfl⟩

theorem witness_FaultedBlockServesNothing : faultedState.fault = true := by decide

/-- A faulted block at a quiet edge, a block that faults, and a block without fault, each meeting the invariant. -/
theorem witness_FaultIsStickyUntilReset :
    (faultedState.fault = true ∧ faultedState.pins.rst = false ∧ ∃ t, step faultedState = .next t) ∧
      ((offering 0x00 0 State.reset).fault = false ∧ (offering 0x00 0 State.reset).accepts = true ∧
        ∃ t, step (offering 0x00 0 State.reset) = .next t ∧ t.fault = true ∧
          ∃ r, t.held = some r ∧ r.status ≠ 0) ∧
      State.reset.Inv ∧ ∃ t, step State.reset = .next t ∧ t.fault = false :=
  ⟨⟨rfl, rfl, _, rfl⟩, ⟨rfl, by decide, _, rfl, rfl, _, rfl, by decide⟩,
    ⟨by decide, by decide, by decide, by decide, by decide, by intro r h; cases h⟩, _, rfl, rfl⟩

theorem witness_SeededMeansConstructed :
    (∃ t, step (offering 0x01 7 State.reset) = .next t ∧ t.seeded = true) ∧
      ∃ t, step State.reset = .next t ∧ t.seeded = false :=
  ⟨⟨_, rfl, rfl⟩, _, rfl, rfl⟩

theorem witness_DecodeOfEncodeIsTheInstruction : (Instr.seedBytes bytes12345).wellFormed = true := by decide

theorem witness_EncodeOfDecodeIsCanonical :
    decode 0x03 (0x0000000000000007000000000000000400000000000000010000000000003039) =
      some (.seedStream 12345 1 4) := by decide

/-- Buses that agree on the bits read and differ in the next bit (V-D3). -/
theorem witness_UnreadOperandBitsAreIgnored :
    ((0x10000000000003039 : Operands).extractLsb' 0 64 = (0x3039 : Operands).extractLsb' 0 64 ∧
        (0x10000000000003039 : Operands) ≠ 0x3039) ∧
      ((1 <<< 192 : Operands).extractLsb' 0 192 = (0 : Operands).extractLsb' 0 192 ∧
        (1 <<< 192 : Operands) ≠ 0) := by decide

theorem witness_AssembledCommandsAreWellFormed :
    assembleLine "SEED_U64 0".toList = .line (.command (.seedU64 0)) := by decide +kernel

theorem witness_AssemblerReadsTheTextOfACommand :
    (Instr.seedBytes bytes12345).wellFormed = true ∧ (Instr.seedU64 0xffffffffffffffff).wellFormed = true := by decide

theorem witness_StepRunsTheDecodedCommand :
    ((offering 0x05 0 readyState).wasReset = true ∧ (offering 0x05 0 readyState).ctrl = .idle ∧
        (offering 0x05 0 readyState).pins.rst = false ∧ (offering 0x05 0 readyState).pins.cmdValid = true ∧
        decode (offering 0x05 0 readyState).pins.cmdWord (offering 0x05 0 readyState).pins.cmdOpd = some .nextU32) ∧
      decodeTableWord 8 0x01 = some (.seedU64 0) := by decide

theorem witness_ResetLeavesTheBlockUnseededAndIdle :
    ({ faultedState with inputs := [resetPins] } : State).pins.rst = true ∧
      ({ faultedState with inputs := [resetPins] } : State).nextInputs.pins.rst = false := by decide

theorem witness_StepKeepsTheInvariant :
    faultedState.Inv ∧ ∃ t, step faultedState = .next t :=
  ⟨⟨by decide, by decide, by decide, by decide, by decide, by intro r h; cases h⟩, _, rfl⟩

/-- An edge that presents a response, and one that accepts a command. -/
theorem witness_StatusPortTiming :
    (∃ t, step { readyState with ctrl := .busy 1 { status := 0, data := 7 } } = .next t ∧ t.rspValid = true) ∧
      ({ readyState with ctrl := .busy 1 { status := 0, data := 7 } } : State).rspValid = false ∧
      (offering 0x04 0 readyState).pins.rst = false ∧
      ∃ t, step (offering 0x04 0 readyState) = .next t ∧ t.rspValid = false :=
  ⟨⟨_, rfl, rfl⟩, rfl, rfl, _, rfl, rfl⟩

/-- A presented response held at one edge and taken at another. -/
theorem witness_ResponseStaysUntilTaken :
    ((presenting Pins.quiet).rspPort = some { status := 0, data := 7 } ∧ (presenting Pins.quiet).pins.rst = false ∧
        (presenting Pins.quiet).pins.rspReady = false ∧ ∃ t, step (presenting Pins.quiet) = .next t) ∧
      (presenting takePins).rspPort = some { status := 0, data := 7 } ∧ (presenting takePins).pins.rst = false ∧
        (presenting takePins).pins.rspReady = true ∧
        ∃ t, step (presenting takePins) = .next t ∧ t.pins.rst = false :=
  ⟨⟨rfl, rfl, rfl, _, rfl⟩, rfl, rfl, rfl, _, rfl, rfl⟩

theorem witness_BlockHoldsItsStateBetweenCommands :
    readyState.pins.rst = false ∧ readyState.accepts = false ∧ ∃ t, step readyState = .next t :=
  ⟨rfl, by decide, _, rfl⟩

theorem witness_EveryCommandPresentsItsResponse :
    (offering 0x04 0 readyState).wasReset = true ∧ (offering 0x04 0 readyState).accepts = true ∧
      ∀ p ∈ (offering 0x04 0 readyState).inputs.take
        (1 + max 1 (latencyOf (offering 0x04 0 readyState).pins.cmdWord (offering 0x04 0 readyState))),
        p.rst = false := by decide

/-- An accepting edge, a command in progress with quiet inputs, and a presented response that is taken. -/
theorem witness_EveryCommandInProgressCompletes :
    ((offering 0x04 0 readyState).wasReset = true ∧ (offering 0x04 0 readyState).accepts = true) ∧
      (({ readyState with ctrl := .busy 3 { status := 0, data := 7 } } : State).held = some { status := 0, data := 7 } ∧
        ∀ p ∈ (List.replicate 3 Pins.quiet).take 3, p.rst = false) ∧
      (presenting takePins).wasReset = true ∧ (presenting takePins).rspPort = some { status := 0, data := 7 } ∧
        (presenting takePins).pins.rst = false ∧ (presenting takePins).pins.rspReady = true := by decide

theorem witness_BlockRunsOnceReset :
    State.reset.wasReset = true ∧ faultedState.powerOn.wasReset = false ∧ faultedState.powerOn.pins.rst = false := by
  decide

theorem witness_EdgesCarryOutTheTransactions : readyState.ctrl = .idle ∧ readyState.wasReset = true := by decide

/-- A block that can run FILL, one not reset since power-on and one with a command in progress. -/
theorem witness_FillMatchesSuccessiveWords :
    (readyState.wasReset = true ∧ readyState.ctrl = .idle ∧ readyState.mode = .ready) ∧
      (0 < 1 ∧ readyState.powerOn.wasReset = false) ∧ (presenting Pins.quiet).ctrl ≠ .idle := by decide

theorem witness_BootOrderNeverErrs :
    isConstruction (.seedStream 7 0 1) = true ∧ (Instr.seedStream 7 0 1).wellFormed = true ∧
      (∀ seed k n, Instr.seedStream 7 0 1 = .seedStream seed k n → k.toNat < n.toNat) ∧
      ∀ j ∈ [Instr.nextU64, .nextU32], isConstruction j = false :=
  ⟨rfl, rfl, by intro seed k n h; cases h; decide, by decide⟩

/-- Two blocks that differ in the accumulator only. -/
theorem witness_AccumulatorIsNeverObserved :
    readyState.visible = ({ readyState with smAcc := 7 } : State).visible ∧
      readyState ≠ { readyState with smAcc := 7 } ∧
      (hostRun [sendInstr .nextU64] readyState).isSome = true ∧
      (hostRun [sendInstr .nextU64] { readyState with smAcc := 7 }).isSome = true := by decide +kernel

theorem witness_UnitsAreIndependent :
    (0 : Nat) ≠ 1 ∧ (Platform.mk State.reset [readyState]).units[0]? = some State.reset ∧
      (∃ q, (Platform.mk State.reset [readyState]).stepUnit 0 = .next q) ∧
      ∃ q, (Platform.mk State.reset [readyState]).stepUnit 1 = .next q :=
  ⟨by decide, rfl, ⟨_, rfl⟩, _, rfl⟩

end Sys2Proof.Tests
end

section
/-!
PROOFS. The parameter table of rule R8: the configuration fields that have no lemma under `Laws/`, the step under other
values of `FL_INC`, `ROT_A` and `ROT_B`, and O1.
-/

namespace Sys2Proof.Machine

@[simp] theorem config_smM1 : config.smM1 = 0xbf58476d1ce4e5b9 := by rfl
@[simp] theorem config_smM2 : config.smM2 = 0x94d049bb133111eb := by rfl
@[simp] theorem config_smS1 : config.smS1 = 30 := by rfl
@[simp] theorem config_smS2 : config.smS2 = 27 := by rfl
@[simp] theorem config_smS3 : config.smS3 = 31 := by rfl
@[simp] theorem config_rotA : config.rotA = 16 := by rfl
@[simp] theorem config_rotB : config.rotB = 40 := by rfl

/-- The period guarantee of rule R9 rests on this. -/
theorem config_flInc_odd : config.flInc.getLsbD 0 = true := by
  rw [config_flInc]
  decide

/-- The step equations read the three parameters from the configuration, so they are free in it (rule R8). -/
theorem coreStep_config_with (inc : Word) (a b : Nat) (g : Generator) :
    coreStep { config with flInc := inc, rotA := a, rotB := b } g = stepV3 inc a b g := by rfl

/-- Settles O1: each value by its field's lemma, the two clauses on the step by `coreStep_config` and
`coreStep_config_with`, and the number of units by `one_le_instances`. -/
theorem configHoldsTheParameterTable : Obligations.ConfigHoldsTheParameterTable := by
  have step_of_config (g : Generator) :
      coreStep config g = stepV3 config.flInc config.rotA config.rotB g := by
    rw [coreStep_config, config_flInc, config_rotA, config_rotB]
  exact ⟨config_smGamma, config_smM1, config_smM2, config_smS1, config_smS2, config_smS3,
    config_warmupSteps, config_streamMul, config_flInc, config_rotA, config_rotB, config_drawOrder, config_cpsFormula,
    config_offsetOrder, by rw [seedBytesLen], config_flInc_odd, step_of_config, coreStep_config_with, one_le_instances⟩

end Sys2Proof.Machine
end

section
/-!
PROOFS. The bits of the status byte (rule R30), and O47.
-/

namespace Sys2Proof.Machine

/-! ### The fields of the status byte, decided over its 32 flag values -/

@[simp] theorem statusByte_getLsbD_zero (seeded fault : Bool) (errcode : BitVec 3) :
    (statusByte seeded fault errcode).getLsbD 0 = seeded := by
  revert seeded fault errcode
  decide

@[simp] theorem statusByte_getLsbD_one (seeded fault : Bool) (errcode : BitVec 3) :
    (statusByte seeded fault errcode).getLsbD 1 = fault := by
  revert seeded fault errcode
  decide

@[simp] theorem statusByte_errcode (seeded fault : Bool) (errcode : BitVec 3) :
    (statusByte seeded fault errcode).extractLsb' 2 3 = errcode := by
  revert seeded fault errcode
  decide

@[simp] theorem statusByte_reserved (seeded fault : Bool) (errcode : BitVec 3) :
    (statusByte seeded fault errcode).extractLsb' 5 3 = 0 := by
  revert seeded fault errcode
  decide

/-- Settles O47: each field of the status byte by its lemma. -/
theorem statusByteLayout : Obligations.StatusByteLayout := fun s =>
  ⟨statusByte_getLsbD_zero s.seeded s.fault s.errcode, statusByte_getLsbD_one s.seeded s.fault s.errcode,
    statusByte_errcode s.seeded s.fault s.errcode, statusByte_reserved s.seeded s.fault s.errcode⟩

end Sys2Proof.Machine
end

section
/-!
PROOFS. What accepting a command word leaves, and what one edge does to the registers, each said once: the proofs about the
flags go through these.
-/

namespace Sys2Proof.Machine

/-- The codes that fault entry records in `ERRCODE` (rule R133): all but OK and Faulted. -/
def StatusCode.isRecorded (k : StatusCode) : Bool := k != .ok && k != .faulted

/-- A recorded code is one of 1 to 4 (rule R130). -/
theorem statusBits_recorded {k : StatusCode} (hk : k.isRecorded = true) :
    1 ≤ (statusBits k).toNat ∧ (statusBits k).toNat ≤ 4 := by
  revert hk
  cases k <;> decide

/-- A recorded code is not OK. -/
theorem statusBits_ne_zero {k : StatusCode} (hk : k.isRecorded = true) : statusBits k ≠ 0#3 := by
  intro h
  have hpos := (statusBits_recorded hk).1
  rw [h] at hpos
  exact absurd hpos (by decide)

/-- What an instruction does once `FAULT = 0` is checked (rules R95, R96, R99, R116, R117). -/
def execBody : Instr → State → State
  | .seedU64 seed => constructFromSeed seed
  | .seedBytes bytes => constructFromSeed (fromLE8 bytes)
  | .seedStream seed k n => constructCheckedStream seed k n
  | .nextU64 => sample id
  | .nextU32 => sample highHalf

/-- Every instruction starts with the check of `FAULT` (rule R134). -/
theorem exec_eq_unlessFaulted (i : Instr) (s : State) :
    exec i s = .next (unlessFaulted (instrLatency i s) (execBody i) s) := by
  cases i <;> rfl

theorem exec_of_noFault {s : State} (h : s.fault = false) (i : Instr) : exec i s = .next (execBody i s) := by
  rw [exec_eq_unlessFaulted, unlessFaulted_of_noFault h]

/-- The ways in which an accepted command can leave the block. -/
inductive AcceptEnd (w : Byte) (opd : Operands) (s : State) : State → Prop
  /-- With `FAULT = 1` only the answer Faulted is given (rule R134). -/
  | faulted (n : Nat) (hf : s.fault = true) : AcceptEnd w opd s (respond n .faulted config.noWordData s)
  /-- An error is raised (rule R133). -/
  | raised (n : Nat) (k : StatusCode) (hf : s.fault = false) (hk : k.isRecorded = true) :
      AcceptEnd w opd s (raiseFault n k s)
  /-- A construction completes (rule R94). -/
  | constructed (i : Instr) (g : Generator) (a : Word) (hf : s.fault = false) (hd : decode w opd = some i)
      (hi : isConstruction i = true) : AcceptEnd w opd s (finishConstruction g a s)
  /-- A sample completes, which takes `SEEDED = 1` (rules R116, R117). -/
  | sampled (g : Generator) (d : Word) (hf : s.fault = false) (hs : s.seeded = true) :
      AcceptEnd w opd s (finishSample g d s)

theorem acceptEnd_of_decode {w : Byte} {opd : Operands} {i : Instr} {s t : State} (hd : decode w opd = some i)
    (h : exec i s = .next t) : AcceptEnd w opd s t := by
  obtain ⟨u, hu, hcases⟩ := exec_cases i s
  obtain rfl : u = t := by rw [hu] at h; exact Host.Outcome.next.inj h
  rcases hcases with ⟨hf, rfl⟩ | ⟨hf, -, -, rfl⟩ | ⟨hf, -, rfl⟩ | ⟨hf, -, rfl⟩ | ⟨hf, hi, -, g, a, rfl⟩ |
    ⟨hf, hs, -, rfl⟩
  · exact .faulted _ hf
  · exact .raised _ _ hf rfl
  · exact .raised _ _ hf rfl
  · exact .raised _ _ hf rfl
  · exact .constructed i g a hf hd hi
  · exact .sampled _ _ hf hs

/-- Accepting a word ends in one of the ways `AcceptEnd` lists. -/
theorem acceptEnd_of_accept {w : Byte} {opd : Operands} {s t : State} (h : accept w opd s = .next t) :
    AcceptEnd w opd s t := by
  rcases accept_cases w opd s with ⟨i, hd, e⟩ | ⟨-, hf, e⟩ | ⟨-, hf, e⟩ <;> rw [e] at h
  · exact acceptEnd_of_decode hd h
  · obtain rfl := Host.Outcome.next.inj h
    exact .faulted _ hf
  · obtain rfl := Host.Outcome.next.inj h
    exact .raised _ _ hf rfl

theorem accepts_iff (s : State) :
    s.accepts = true ↔ s.ctrl = .idle ∧ s.pins.rst = false ∧ s.pins.cmdValid = true := by
  simp [State.accepts, State.cmdReady, and_assoc]

/-- The architectural registers of rule R20 have the same values in `s` and `t`. -/
structure SameRegisters (s t : State) : Prop where
  gen : t.gen = s.gen
  smAcc : t.smAcc = s.smAcc
  seeded : t.seeded = s.seeded
  fault : t.fault = s.fault
  errcode : t.errcode = s.errcode

/-- One edge takes reset, accepts a command, or leaves the registers alone (rule R148). -/
theorem step_registers {s t : State} (h : step s = .next t) :
    (s.pins.rst = true ∧ t = s.nextInputs.takeReset) ∨
      (s.pins.rst = false ∧ s.accepts = true ∧ AcceptEnd s.pins.cmdWord s.pins.cmdOpd s.nextInputs t) ∨
      (s.pins.rst = false ∧ s.accepts = false ∧ SameRegisters s t) := by
  rcases step_cases h with ⟨hr, rfl⟩ | ⟨hr, -, hrun⟩
  · exact .inl ⟨hr, rfl⟩
  · rcases hrun with ⟨hc, hv, ha⟩ | ⟨-, hv, rfl⟩ | ⟨n, r, hc, -, rfl⟩ | ⟨n, r, hc, -, rfl⟩ | ⟨r, hc, -, rfl⟩ |
      ⟨r, hc, -, rfl⟩
    · exact .inr (.inl ⟨hr, (accepts_iff s).2 ⟨hc, hr, hv⟩, acceptEnd_of_accept ha⟩)
    · exact .inr (.inr ⟨hr, by simp [State.accepts, hv], ⟨rfl, rfl, rfl, rfl, rfl⟩⟩)
    all_goals
      exact .inr (.inr ⟨hr, by simp [State.accepts, State.cmdReady, hc], ⟨rfl, rfl, rfl, rfl, rfl⟩⟩)

end Sys2Proof.Machine
end

section
/-!
PROOFS. The invariant of flags, status port and responses: one lemma per operation that writes them, and O46.
-/

namespace Sys2Proof.Machine

/-! ### Legal responses (rules R66, R130) -/

theorem responseLegal_ok (d : Word) : ResponseLegal false { status := statusBits .ok, data := d } :=
  ⟨Nat.zero_le 5, fun h => absurd rfl h, by simp⟩

theorem responseLegal_faulted : ResponseLegal true { status := statusBits .faulted, data := config.noWordData } :=
  ⟨by decide, fun _ => config_noWordData, by decide⟩

theorem responseLegal_recorded {k : StatusCode} (hk : k.isRecorded = true) :
    ResponseLegal true { status := statusBits k, data := config.noWordData } where
  code := Nat.le_succ_of_le (statusBits_recorded hk).2
  errorData _ := config_noWordData
  okIffUnfaulted := by simpa [statusBits] using statusBits_ne_zero hk

/-! ### `ERRCODE` and the status byte -/

/-- In a state of the invariant `ERRCODE` is 0 to 4 whatever `FAULT` is (rules R28, R130). -/
theorem State.Inv.errcode_le {s : State} (h : s.Inv) : s.errcode.toNat ≤ 4 := by
  cases hf : s.fault with
  | false => rw [h.errcodeClear hf]; decide
  | true => exact (h.errcodeRecorded hf).2

/-- A state whose port shows its flags and whose `ERRCODE` agrees with `FAULT` meets the invariant once its held response
is legal. -/
theorem State.Inv.of_portCurrent {s : State} (hclear : s.fault = false → s.errcode = 0)
    (hrec : s.fault = true → 1 ≤ s.errcode.toNat ∧ s.errcode.toNat ≤ 4) (hport : s.statusPort = s.flagsByte)
    (hresp : ∀ r, s.held = some r → ResponseLegal s.fault r) : s.Inv where
  errcodeClear := hclear
  errcodeRecorded := hrec
  portReserved := by rw [hport]; exact statusByte_reserved _ _ _
  portErrcode := by
    rw [hport, State.flagsByte, statusByte_errcode]
    cases hf : s.fault with
    | false => rw [hclear hf]; decide
    | true => exact (hrec hf).2
  portCurrent _ := hport
  response := hresp

/-- A state with a command in progress meets the invariant if the command left the status port of a state that does. -/
theorem State.Inv.of_busy {s t : State} {n : Nat} {r : Response} (h : s.Inv) (hport : t.statusPort = s.statusPort)
    (hclear : t.fault = false → t.errcode = 0)
    (hrec : t.fault = true → 1 ≤ t.errcode.toNat ∧ t.errcode.toNat ≤ 4)
    (hctrl : t.ctrl = .busy n r) (hr : ResponseLegal t.fault r) : t.Inv where
  errcodeClear := hclear
  errcodeRecorded := hrec
  portReserved := by rw [hport]; exact h.portReserved
  portErrcode := by rw [hport]; exact h.portErrcode
  portCurrent hb := by simp [State.isBusy, hctrl] at hb
  response r' hr' := by
    obtain rfl : r = r' := by simpa [State.held, hctrl] using hr'
    exact hr

/-! ### The operations keep the invariant -/

theorem inv_takeReset (s : State) : s.takeReset.Inv :=
  .of_portCurrent (fun _ => rfl) (fun h => by simp at h)
    (show State.reset.statusPort = State.reset.flagsByte by decide) (fun r h => by simp [State.held] at h)

/-- The invariant does not read the inputs. -/
theorem State.Inv.nextInputs {s : State} (h : s.Inv) : s.nextInputs.Inv :=
  ⟨h.errcodeClear, h.errcodeRecorded, h.portReserved, h.portErrcode, h.portCurrent, h.response⟩

theorem State.Inv.present {s : State} {n : Nat} {r : Response} (h : s.Inv) (hc : s.ctrl = .busy n r) :
    (s.present r).Inv :=
  .of_portCurrent h.errcodeClear h.errcodeRecorded rfl fun r' hr' =>
    h.response r' (by simpa [State.held, hc] using hr')

theorem State.Inv.wait {s : State} {n m : Nat} {r : Response} (h : s.Inv) (hc : s.ctrl = .busy n r) :
    (s.wait m r).Inv :=
  h.of_busy rfl h.errcodeClear h.errcodeRecorded rfl (h.response r (by simp [State.held, hc]))

theorem State.Inv.release {s : State} {r : Response} (h : s.Inv) (hc : s.ctrl = .responding r) : s.release.Inv :=
  .of_portCurrent h.errcodeClear h.errcodeRecorded (h.portCurrent (by simp [State.isBusy, hc]))
    (fun r' hr' => by simp [State.held] at hr')

/-- Accepting a command keeps the invariant, in each of the ways it can end. -/
theorem State.Inv.accept {w : Byte} {opd : Operands} {s t : State} (h : s.Inv) (ht : AcceptEnd w opd s t) : t.Inv := by
  cases ht with
  | faulted n hf =>
    refine h.of_busy rfl h.errcodeClear h.errcodeRecorded rfl ?_
    rw [respond_fault, hf]
    exact responseLegal_faulted
  | raised n k hf hk =>
    exact h.of_busy rfl (fun hf' => by simp at hf') (fun _ => statusBits_recorded hk) rfl
      (responseLegal_recorded hk)
  | constructed i g a hf hd hi =>
    refine h.of_busy rfl h.errcodeClear h.errcodeRecorded rfl ?_
    rw [finishConstruction_fault, hf]
    exact responseLegal_ok _
  | sampled g d hf hs =>
    refine h.of_busy rfl h.errcodeClear h.errcodeRecorded rfl ?_
    rw [finishSample_fault, hf]
    exact responseLegal_ok d

/-- Settles O46: each case of an edge by the lemma of its operation. -/
theorem stepKeepsTheInvariant : Obligations.StepKeepsTheInvariant := by
  intro s t hinv hstep
  rcases step_cases hstep with ⟨-, rfl⟩ | ⟨-, -, hrun⟩
  · exact inv_takeReset _
  · rcases hrun with ⟨-, -, ha⟩ | ⟨-, -, rfl⟩ | ⟨n, r, hc, -, rfl⟩ | ⟨n, r, hc, -, rfl⟩ | ⟨r, hc, -, rfl⟩ |
      ⟨r, -, -, rfl⟩
    · exact hinv.nextInputs.accept (acceptEnd_of_accept ha)
    · exact hinv.nextInputs
    · exact hinv.nextInputs.present hc
    · exact hinv.nextInputs.wait hc
    · exact hinv.nextInputs.release hc
    · exact hinv.nextInputs

end Sys2Proof.Machine
end

section
/-!
PROOFS. `FAULT`, `ERRCODE` and `SEEDED` from edge to edge (rules R27, R28): O34 and O35.
-/

namespace Sys2Proof.Machine

/-- `FAULT` and `ERRCODE` stay as they are under every command accepted with `FAULT = 1` (rules R28, R134). -/
theorem AcceptEnd.fault_sticky {w : Byte} {opd : Operands} {s t : State} (h : AcceptEnd w opd s t)
    (hf : s.fault = true) : t.fault = true ∧ t.errcode = s.errcode := by
  cases h with
  | faulted n _ => exact ⟨hf, rfl⟩
  | raised n k hf' _ => simp [hf] at hf'
  | constructed i g a hf' _ _ => simp [hf] at hf'
  | sampled g d hf' _ => simp [hf] at hf'

/-- A command that sets `FAULT` answers with the code it records, and no data (rule R133). -/
theorem AcceptEnd.held_of_fault_rises {w : Byte} {opd : Operands} {s t : State} (h : AcceptEnd w opd s t)
    (hs : s.fault = false) (ht : t.fault = true) : t.held = some { status := t.errcode, data := 0 } := by
  cases h with
  | faulted n hf => simp [hs] at hf
  | raised n k _ _ => simp
  | constructed i g a _ _ _ => simp [hs] at ht
  | sampled g d _ _ => simp [hs] at ht

/-- A command that answers an error leaves `FAULT = 1` (rule R28). -/
theorem AcceptEnd.fault_of_error {w : Byte} {opd : Operands} {s t : State} {r : Response} (h : AcceptEnd w opd s t)
    (hr : t.held = some r) (herr : r.status ≠ 0) : t.fault = true := by
  cases h with
  | faulted n hf => exact hf
  | raised n k _ _ => exact raiseFault_fault n k s
  | constructed i g a _ _ _ =>
    rw [finishConstruction_held] at hr
    obtain rfl := Option.some.inj hr
    exact absurd rfl herr
  | sampled g d _ _ =>
    rw [finishSample_held] at hr
    obtain rfl := Option.some.inj hr
    exact absurd rfl herr

/-- Settles O34: an edge takes reset, accepts a command or holds the registers; for the last clause the state after it
meets the invariant. -/
theorem faultIsStickyUntilReset : Obligations.FaultIsStickyUntilReset := by
  intro s t hstep
  refine ⟨?sticky, ?rises, ?error, fun hinv => (stepKeepsTheInvariant s t hinv hstep).errcodeClear⟩
  case sticky =>
    intro hf hr
    rcases step_registers hstep with ⟨hr', -⟩ | ⟨-, -, ha⟩ | ⟨-, -, hsame⟩
    · simp [hr] at hr'
    · exact ha.fault_sticky hf
    · exact ⟨hsame.fault.trans hf, hsame.errcode⟩
  case rises =>
    intro hf ht
    rcases step_registers hstep with ⟨-, rfl⟩ | ⟨hr, hacc, ha⟩ | ⟨-, -, hsame⟩
    · simp at ht
    · exact ⟨hr, hacc, ha.held_of_fault_rises hf ht⟩
    · rw [hsame.fault, hf] at ht
      cases ht
  case error =>
    rintro hacc ⟨r, hr, herr⟩
    rcases step_registers hstep with ⟨hr', -⟩ | ⟨-, -, ha⟩ | ⟨-, hacc', -⟩
    · simp [((accepts_iff s).1 hacc).2.1] at hr'
    · exact ha.fault_of_error hr herr
    · simp [hacc] at hacc'

/-- An accepted command leaves `SEEDED = 1` exactly if it was 1 or the command is a construction that answers (OK, 0)
(rules R27, R94). -/
theorem AcceptEnd.seeded_iff {w : Byte} {opd : Operands} {s t : State} (h : AcceptEnd w opd s t) :
    t.seeded = true ↔ s.seeded = true ∨ (t.held = some { status := 0, data := 0 } ∧
      ∃ i, decode w opd = some i ∧ isConstruction i = true) := by
  cases h with
  | faulted n hf => simp [statusBits]
  | raised n k hf hk => simp [statusBits_ne_zero hk]
  | constructed i g a hf hd hi => simp [statusBits, hd, hi]
  | sampled g d hf hs => simp [hs]

/-- Settles O35: reset clears `SEEDED`, `AcceptEnd.seeded_iff` says it for an accepted command, and any other edge keeps
it. -/
theorem seededMeansConstructed : Obligations.SeededMeansConstructed := by
  intro s t hstep
  rcases step_registers hstep with ⟨hr, rfl⟩ | ⟨hr, hacc, ha⟩ | ⟨hr, hacc, hsame⟩
  · simp [hr]
  · simpa [hr, hacc] using ha.seeded_iff
  · simp [hr, hacc, hsame.seeded]

end Sys2Proof.Machine
end

section
/-!
PROOFS. No response and no visible register depends on the accumulator (rules R26, R32): the relation `SameAnswer` between
the results of one command on two blocks, kept by every operation, and O56.
-/

namespace Sys2Proof.Machine

/-- Two results of a command agree in what a host can learn: the visible registers and the response. -/
structure SameAnswer (t t' : State) : Prop where
  visible : t.visible = t'.visible
  held : t.held = t'.held

/-- Blocks with the same visible part agree on the Generator State and the flags. -/
theorem visible_eq_iff (s s' : State) :
    s.visible = s'.visible ↔
      s.gen = s'.gen ∧ s.seeded = s'.seeded ∧ s.fault = s'.fault ∧ s.errcode = s'.errcode := by
  simp [State.visible]

/-! ### The operations give the same answer on blocks with the same visible part -/

theorem respond_sameAnswer {s s' : State} (h : s.visible = s'.visible) (n n' : Nat) (k : StatusCode) (d : Word) :
    SameAnswer (respond n k d s) (respond n' k d s') :=
  ⟨h, rfl⟩

theorem raiseFault_sameAnswer {s s' : State} (h : s.visible = s'.visible) (n n' : Nat) (k : StatusCode) :
    SameAnswer (raiseFault n k s) (raiseFault n' k s') := by
  obtain ⟨hgen, hseeded, -, -⟩ := (visible_eq_iff s s').1 h
  exact ⟨(visible_eq_iff _ _).2 ⟨hgen, hseeded, rfl, rfl⟩, rfl⟩

theorem finishConstruction_sameAnswer {s s' : State} (h : s.visible = s'.visible) (g : Generator) (a : Word) :
    SameAnswer (finishConstruction g a s) (finishConstruction g a s') := by
  obtain ⟨-, -, hfault, herrcode⟩ := (visible_eq_iff s s').1 h
  exact ⟨(visible_eq_iff _ _).2 ⟨rfl, rfl, hfault, herrcode⟩, rfl⟩

theorem finishSample_sameAnswer {s s' : State} (h : s.visible = s'.visible) (g : Generator) (d : Word) :
    SameAnswer (finishSample g d s) (finishSample g d s') := by
  obtain ⟨-, hseeded, hfault, herrcode⟩ := (visible_eq_iff s s').1 h
  exact ⟨(visible_eq_iff _ _).2 ⟨rfl, hseeded, hfault, herrcode⟩, rfl⟩

theorem unlessFaulted_sameAnswer {s s' : State} (h : s.visible = s'.visible) (n n' : Nat) {body body' : State → State}
    (hbody : SameAnswer (body s) (body' s')) : SameAnswer (unlessFaulted n body s) (unlessFaulted n' body' s') := by
  obtain ⟨-, -, hfault, -⟩ := (visible_eq_iff s s').1 h
  rcases unlessFaulted_cases n body s with ⟨hf, e⟩ | ⟨hf, e⟩ <;> rw [e]
  · rw [unlessFaulted_of_fault (hfault ▸ hf)]
    exact respond_sameAnswer h _ _ _ _
  · rw [unlessFaulted_of_noFault (hfault ▸ hf)]
    exact hbody

theorem constructCheckedStream_sameAnswer {s s' : State} (h : s.visible = s'.visible) (seed k n : Word) :
    SameAnswer (constructCheckedStream seed k n s) (constructCheckedStream seed k n s') := by
  unfold constructCheckedStream
  split
  · exact raiseFault_sameAnswer h _ _ _
  · split
    · exact raiseFault_sameAnswer h _ _ _
    · exact finishConstruction_sameAnswer h _ _

theorem sample_sameAnswer {s s' : State} (h : s.visible = s'.visible) (view : Word → Word) :
    SameAnswer (sample view s) (sample view s') := by
  obtain ⟨hgen, hseeded, -, -⟩ := (visible_eq_iff s s').1 h
  unfold sample
  rw [hgen, hseeded]
  split
  · exact finishSample_sameAnswer h _ _
  · exact raiseFault_sameAnswer h _ _ _

/-! ### Commands, transactions and sequences of host actions -/

theorem execBody_sameAnswer {s s' : State} (h : s.visible = s'.visible) (i : Instr) :
    SameAnswer (execBody i s) (execBody i s') := by
  cases i with
  | seedU64 seed => exact finishConstruction_sameAnswer h _ _
  | seedBytes bytes => exact finishConstruction_sameAnswer h _ _
  | seedStream seed k n => exact constructCheckedStream_sameAnswer h seed k n
  | nextU64 => exact sample_sameAnswer h id
  | nextU32 => exact sample_sameAnswer h highHalf

theorem accept_sameAnswer {w : Byte} {opd : Operands} {s s' t t' : State} (h : s.visible = s'.visible)
    (ht : accept w opd s = .next t) (ht' : accept w opd s' = .next t') : SameAnswer t t' := by
  cases hd : decode w opd with
  | some i =>
    rw [accept_of_decode hd, exec_eq_unlessFaulted] at ht ht'
    obtain rfl := Host.Outcome.next.inj ht
    obtain rfl := Host.Outcome.next.inj ht'
    exact unlessFaulted_sameAnswer h _ _ (execBody_sameAnswer h i)
  | none =>
    rw [accept_of_illegal hd] at ht ht'
    obtain rfl := Host.Outcome.next.inj ht
    obtain rfl := Host.Outcome.next.inj ht'
    exact unlessFaulted_sameAnswer h _ _ (raiseFault_sameAnswer h _ _ _)

theorem transact_sameAnswer {w : Byte} {opd : Operands} {s s' t t' : State} {r r' : Response}
    (h : s.visible = s'.visible) (ht : transact w opd s = some (t, r)) (ht' : transact w opd s' = some (t', r')) :
    r = r' ∧ t.visible = t'.visible := by
  obtain ⟨-, u, n, hu, hc, rfl⟩ := transact_cases ht
  obtain ⟨-, u', n', hu', hc', rfl⟩ := transact_cases ht'
  have hsame := accept_sameAnswer h hu hu'
  exact ⟨by simpa [State.held, hc, hc'] using hsame.held, hsame.visible⟩

/-- A sequence that sends a command first and has a result: the transaction, then the rest. -/
theorem hostRun_send_cases {w : Byte} {opd : Operands} {as : List HostAction} {s u : State} {rs : List Response}
    (h : hostRun (.send w opd :: as) s = some (u, rs)) :
    ∃ t r rest, transact w opd s = some (t, r) ∧ hostRun as t = some (u, rest) ∧ rs = r :: rest := by
  cases htr : transact w opd s with
  | none => rw [hostRun, htr] at h; cases h
  | some x =>
    obtain ⟨t, r⟩ := x
    rw [hostRun_send htr, Option.map_eq_some_iff] at h
    obtain ⟨⟨u', rest⟩, hrun, heq⟩ := h
    obtain ⟨rfl, rfl⟩ := Prod.mk.inj heq
    exact ⟨t, r, rest, rfl, hrun, rfl⟩

/-- Settles O56, by induction on the actions: reset leaves the same visible part on any block, and a transaction keeps
the agreement. -/
theorem accumulatorIsNeverObserved : Obligations.AccumulatorIsNeverObserved := by
  intro actions
  induction actions with
  | nil =>
    intro s s' t t' rs rs' h ht ht'
    obtain ⟨rfl, rfl⟩ := Prod.mk.inj (Option.some.inj ht)
    obtain ⟨rfl, rfl⟩ := Prod.mk.inj (Option.some.inj ht')
    exact ⟨rfl, h⟩
  | cons action rest ih =>
    intro s s' t t' rs rs' h ht ht'
    cases action with
    | reset => exact ih s.takeReset s'.takeReset _ _ _ _ rfl ht ht'
    | send w opd =>
      obtain ⟨u, r, rest, htr, hrun, rfl⟩ := hostRun_send_cases ht
      obtain ⟨u', r', rest', htr', hrun', rfl⟩ := hostRun_send_cases ht'
      obtain ⟨rfl, hvis⟩ := transact_sameAnswer h htr htr'
      obtain ⟨rfl, hend⟩ := ih _ _ _ _ _ _ hvis hrun hrun'
      exact ⟨rfl, hend⟩

end Sys2Proof.Machine
end

section
/-!
PROOFS. The step is injective (rule R113), and with it any number of steps and the warm-up.
-/

namespace Sys2Proof.Machine

/-- Bit `i` of a rotated word. -/
theorem rotl64_getLsbD {k : Nat} (hk : k ≤ 64) (a : Word) {i : Nat} (hi : i < 64) :
    (rotl64 a k).getLsbD i = a.getLsbD (if i < k then 64 - k + i else i - k) := by
  rw [rotl64, BitVec.getLsbD_or, BitVec.getLsbD_shiftLeft, BitVec.getLsbD_ushiftRight]
  split
  · next h => simp [h]
  · next h =>
    rw [BitVec.getLsbD_of_ge a (64 - k + i) (by omega)]
    simp [h, hi]

/-- Rotating on to 64 places in all gives the word back. -/
theorem rotl64_rotl64_complement {k : Nat} (hk : k ≤ 64) (a : Word) : rotl64 (rotl64 a k) (64 - k) = a := by
  apply BitVec.eq_of_getLsbD_eq
  intro i hi
  rw [rotl64_getLsbD (by omega) _ hi]
  split
  · rw [rotl64_getLsbD hk a (by omega), if_neg (by omega)]
    congr 1
    omega
  · rw [rotl64_getLsbD hk a (by omega), if_pos (by omega)]
    congr 1
    omega

/-- Rule R113's formula undoes the step, for any `FL_INC` and any rotations of at most 64 places. -/
theorem unstepV3_stepV3 {rotB : Nat} (hB : rotB ≤ 64) (flInc : Word) (rotA : Nat) (g : Generator) :
    unstepV3 flInc rotA rotB (stepV3 flInc rotA rotB g).2 = g := by
  have hfast : g.fastLoop + flInc - flInc = g.fastLoop := by simp
  have hmix : (g.fastLoop ^^^ g.mix) ^^^ g.fastLoop = g.mix := by
    rw [BitVec.xor_comm g.fastLoop, BitVec.xor_assoc, BitVec.xor_self, BitVec.xor_zero]
  have hloop : rotl64 (rotl64 g.mix rotA + rotl64 g.loopMix rotB - rotl64 g.mix rotA) (64 - rotB) = g.loopMix := by
    rw [add_sub_cancel_left, rotl64_rotl64_complement hB]
  simp only [unstepV3, stepV3, hfast, hmix, hloop]

theorem coreStep_injective : Function.Injective fun g => (coreStep config g).2 :=
  Function.LeftInverse.injective (g := unstepV3 0x9999999999999999 16 40) fun g => by
    rw [coreStep_config, unstepV3_stepV3 (by decide)]

theorem advance_eq_iterate (c : Config) (n : Nat) : advance c n = (fun g => (coreStep c g).2)^[n] := by
  induction n with
  | zero => rfl
  | succ n ih => funext g; rw [advance_succ, ih, Function.iterate_succ_apply]

theorem warmup_injective : Function.Injective (warmup config) := by
  have h : warmup config = advance config config.warmupSteps := by funext g; rw [warmup]
  rw [h, advance_eq_iterate]
  exact coreStep_injective.iterate _

end Sys2Proof.Machine
end

section
/-!
PROOFS. The expander's output function is injective, so `draw_state` ends with its first pass (rules R81, R90, R92).
-/

namespace Sys2Proof.Machine

theorem xorShiftRight_injective {k : Nat} (hk : 0 < k) : Function.Injective fun v => xorShiftRight v k := by
  intro v w h
  have hshift : v ^^^ w = (v ^^^ w) >>> k := by
    rw [← BitVec.xor_eq_zero_iff, BitVec.ushiftRight_xor_distrib]
    calc v ^^^ w ^^^ (v >>> k ^^^ w >>> k) = xorShiftRight v k ^^^ xorShiftRight w k := by
          simp only [xorShiftRight]; ac_rfl
      _ = 0 := BitVec.xor_eq_zero_iff.2 h
  have hzero : (v ^^^ w).toNat = 0 := by
    have hdiv : (v ^^^ w).toNat = (v ^^^ w).toNat / 2 ^ k := by
      rw [← Nat.shiftRight_eq_div_pow, ← BitVec.toNat_ushiftRight, ← hshift]
    by_contra hne
    exact absurd hdiv.symm (Nat.div_lt_self (Nat.pos_of_ne_zero hne) (Nat.one_lt_two_pow hk.ne')).ne
  exact BitVec.xor_eq_zero_iff.1 (BitVec.eq_of_toNat_eq hzero)

theorem isUnit_smM1 : IsUnit config.smM1 :=
  IsUnit.of_mul_eq_one 0x96de1b173f119089 (by rw [config_smM1]; decide)

theorem isUnit_smM2 : IsUnit config.smM2 :=
  IsUnit.of_mul_eq_one 0x319642b2d24d8ec3 (by rw [config_smM2]; decide)

/-- Each stage of rule R81's output function can be undone (rule R82). -/
theorem expanderFin_injective : Function.Injective (expanderFin config) := by
  intro a b h
  have hz2 := xorShiftRight_injective (by simp) h
  have hz1 := xorShiftRight_injective (by simp) (isUnit_smM2.mul_left_injective hz2)
  exact xorShiftRight_injective (by simp) (isUnit_smM1.mul_left_injective hz1)

/-- Two successive draws never return the same word (rule R83). -/
theorem smNext_fst_ne_next (acc : Word) : (smNext config acc).1 ≠ (smNext config (smNext config acc).2).1 := by
  intro h
  rw [smNext_fst, smNext_fst, smNext_snd] at h
  have hgamma : config.smGamma = 0 := left_eq_add.1 (expanderFin_injective h)
  rw [config_smGamma] at hgamma
  exact absurd hgamma (by decide)

/-- One pass of the loop of rule R90. -/
theorem drawPass_config (acc : Word) :
    drawPass config acc =
      { gen :=
          { fastLoop := (smNext config (smNext config (smNext config acc).2).2).1
            mix := (smNext config acc).1
            loopMix := (smNext config (smNext config acc).2).1 }
        smAcc := (smNext config (smNext config (smNext config acc).2).2).2 } :=
  drawPass_of_order config config_drawOrder acc

/-- No pass is ever discarded (rule R92). -/
theorem drawPass_not_allZero (acc : Word) : allZero (drawPass config acc).gen = false := by
  rw [← Bool.not_eq_true, allZero_iff, drawPass_config, Generator.mk.injEq]
  rintro ⟨-, hmix, hloop⟩
  exact smNext_fst_ne_next acc (hmix.trans hloop.symm)

/-- `draw_state` is its first pass (rule R92). -/
theorem drawState_eq_drawPass (seed : Word) : drawState config seed = drawPass config seed := by
  rw [drawState, redrawBound, drawLoop_succ, drawPass_not_allZero, if_neg Bool.false_ne_true]

end Sys2Proof.Machine
end

section
/-!
PROOFS. No construction leaves the all-zero Generator State (rules R24, R91, R107): the one state that the warm-up takes to
zero is not drawn from any seed, and O22.
-/

namespace Sys2Proof.Machine

/-- The state whose warm-up ends all zero: the inverse step of rule R113, 16 times from zero. -/
def warmsUpToZero : Generator :=
  { fastLoop := 0x6666666666666670, mix := 0x459c2f9d8b3e111a, loopMix := 0x0d99f8effb8cf7fe }

theorem warmup_warmsUpToZero : warmup config warmsUpToZero = { fastLoop := 0, mix := 0, loopMix := 0 } := by
  decide +kernel

theorem warmup_eq_zero_iff (g : Generator) :
    warmup config g = { fastLoop := 0, mix := 0, loopMix := 0 } ↔ g = warmsUpToZero := by
  rw [← warmup_warmsUpToZero]
  exact warmup_injective.eq_iff

/-- The accumulator value that the expander's output function takes to the `MIX` word of `warmsUpToZero`. -/
def mixPreimage : Word := 0xe0c62c0fa26111f1

theorem expanderFin_mixPreimage : expanderFin config mixPreimage = warmsUpToZero.mix := by decide +kernel

/-- The draw after it is not the `LOOP_MIX` word of `warmsUpToZero`. -/
theorem expanderFin_after_mixPreimage :
    expanderFin config (mixPreimage + config.smGamma) ≠ warmsUpToZero.loopMix := by
  decide +kernel

theorem drawState_mix (seed : Word) : (drawState config seed).gen.mix = expanderFin config (seed + config.smGamma) := by
  rw [drawState_eq_drawPass, drawPass_config]
  exact smNext_fst config seed

theorem drawState_loopMix (seed : Word) :
    (drawState config seed).gen.loopMix = expanderFin config (seed + config.smGamma + config.smGamma) := by
  rw [drawState_eq_drawPass, drawPass_config, ← smNext_snd config seed]
  exact smNext_fst config (smNext config seed).2

@[simp] theorem offsetFastLoop_mix (off : Word) (g : Generator) : (offsetFastLoop off g).mix = g.mix := by rfl
@[simp] theorem offsetFastLoop_loopMix (off : Word) (g : Generator) : (offsetFastLoop off g).loopMix = g.loopMix := by
  rfl

/-- No seed draws both mixing words of `warmsUpToZero`. -/
theorem drawState_mixing_ne (seed : Word) (hmix : (drawState config seed).gen.mix = warmsUpToZero.mix) :
    (drawState config seed).gen.loopMix ≠ warmsUpToZero.loopMix := by
  rw [drawState_mix, ← expanderFin_mixPreimage] at hmix
  rw [drawState_loopMix, expanderFin_injective hmix]
  exact expanderFin_after_mixPreimage

/-- Warming up a drawn state, with any word added to its `FAST_LOOP`, does not end all zero. -/
theorem warmup_drawState_ne_zero (off seed : Word) :
    warmup config (offsetFastLoop off (drawState config seed).gen) ≠ { fastLoop := 0, mix := 0, loopMix := 0 } := by
  rw [Ne, warmup_eq_zero_iff]
  intro h
  have hmix := congrArg Generator.mix h
  have hloop := congrArg Generator.loopMix h
  rw [offsetFastLoop_mix] at hmix
  rw [offsetFastLoop_loopMix] at hloop
  exact drawState_mixing_ne seed hmix hloop

/-! ### What a construction that succeeds leaves -/

theorem constructFromSeed_gen (seed : Word) (s : State) :
    (constructFromSeed seed s).gen = warmup config (drawState config seed).gen := by
  rw [constructFromSeed, finishConstruction_gen]

theorem constructStream_gen (seed k n : Word) (s : State) :
    (constructStream seed k n s).gen =
      warmup config (offsetFastLoop (streamOffset config k n) (drawState config seed).gen) := by
  rw [constructStream, finishConstruction_gen, placeStream_config]

/-- SEED_STREAM that leaves `FAULT = 0` has passed its checks (rule R100). -/
theorem constructCheckedStream_of_succeeds {seed k n : Word} {s : State}
    (h : (constructCheckedStream seed k n s).fault = false) :
    constructCheckedStream seed k n s = constructStream seed k n s := by
  unfold constructCheckedStream at h ⊢
  split at h
  · simp at h
  · next hcount =>
    split at h
    · simp at h
    · next hindex => rw [if_neg hcount, if_neg hindex]

theorem offsetFastLoop_zero (g : Generator) : offsetFastLoop 0 g = g := by
  simp [offsetFastLoop]

/-- A construction that succeeds leaves a drawn state with an offset, warmed up (rules R95, R96, R99); without a stream
the offset is 0. -/
theorem exec_construction_gen {i : Instr} {s t : State} (hi : isConstruction i = true) (hs : s.fault = false)
    (h : exec i s = .next t) (ht : t.fault = false) :
    ∃ off seed, t.gen = warmup config (offsetFastLoop off (drawState config seed).gen) := by
  rw [exec_of_noFault hs] at h
  obtain rfl := Host.Outcome.next.inj h
  cases i with
  | seedU64 seed => exact ⟨0, seed, by rw [execBody, constructFromSeed_gen, offsetFastLoop_zero]⟩
  | seedBytes bytes => exact ⟨0, fromLE8 bytes, by rw [execBody, constructFromSeed_gen, offsetFastLoop_zero]⟩
  | seedStream seed k n =>
    exact ⟨streamOffset config k n, seed, by
      rw [execBody, constructCheckedStream_of_succeeds ht, constructStream_gen]⟩
  | nextU64 => cases hi
  | nextU32 => cases hi

/-- Settles O22: what a construction leaves is a drawn state warmed up, and no such state is all zero. -/
theorem noConstructionLeavesTheAllZeroState : Obligations.NoConstructionLeavesTheAllZeroState := by
  intro i s t hi hs h ht
  obtain ⟨off, seed, hgen⟩ := exec_construction_gen hi hs h ht
  rw [hgen]
  exact warmup_drawState_ne_zero off seed

end Sys2Proof.Machine
end

section
/-!
PROOFS. The micro-engine of rule R33, phase by phase, and O58.
-/

namespace Sys2Proof.Machine

theorem microRun_succ (c : Config) (n : Nat) (m : Micro) : microRun c (n + 1) m = microRun c n (microStep c m) := by rfl

theorem microRun_one (c : Config) (m : Micro) : microRun c 1 m = microStep c m := by rfl

/-- Micro-steps by a sum. -/
theorem microRun_add (c : Config) (n k : Nat) (m : Micro) : microRun c (n + k) m = microRun c k (microRun c n m) := by
  induction n generalizing m with
  | zero => rw [Nat.zero_add, microRun]
  | succ n ih => rw [Nat.succ_add, microRun_succ, microRun_succ, ih]

/-! ### The phases -/

/-- A draw that is not the last of its pass (rules R81, R90). -/
theorem microStep_drawing_of_lt {c : Config} {m : Micro} {count : Nat} {w : StateWord} (hm : m.phase = .drawing count)
    (hw : c.drawOrder[count]? = some w) (hlt : count + 1 < c.drawOrder.length) :
    microStep c m =
      { m with
        phase := .drawing (count + 1)
        gen := setStateWord m.gen w (smNext c m.smAcc).1
        smAcc := (smNext c m.smAcc).2 } := by
  simp only [microStep, hm, Micro.draw, hw, Micro.afterDraw, if_pos hlt]

/-- The last draw of a pass whose words are not all zero (rule R90). -/
theorem microStep_drawing_of_last {c : Config} {m : Micro} {count : Nat} {w : StateWord} (hm : m.phase = .drawing count)
    (hw : c.drawOrder[count]? = some w) (hlast : ¬count + 1 < c.drawOrder.length)
    (hgen : allZero (setStateWord m.gen w (smNext c m.smAcc).1) = false) :
    microStep c m =
      { m with
        phase := .offsetting
        gen := setStateWord m.gen w (smNext c m.smAcc).1
        smAcc := (smNext c m.smAcc).2 } := by
  simp only [microStep, hm, Micro.draw, hw, Micro.afterDraw, if_neg hlast, hgen, if_neg Bool.false_ne_true]

theorem microStep_offsetting {c : Config} {m : Micro} (hm : m.phase = .offsetting) :
    microStep c m = { m with gen := offsetFastLoop m.offset m.gen, phase := .warmingUp 0 } := by
  rw [microStep, hm]

theorem microStep_stepping {c : Config} {m : Micro} (hm : m.phase = .stepping) :
    microStep c m =
      { m with gen := (coreStep c m.gen).2, output := (coreStep c m.gen).1, phase := .responding } := by
  rw [microStep, hm]

/-! ### Whole commands -/

/-- Three micro-steps draw the words of `draw_state`, whatever the registers held: each word is overwritten, and by rule
R92 none is drawn again. -/
theorem microRun_draws (gen : Generator) (seed off : Word) :
    microRun config 3 (Micro.startConstruction gen seed off) =
      { phase := .offsetting, gen := (drawState config seed).gen, smAcc := (drawState config seed).smAcc,
        offset := off, output := 0 } := by
  have hnonzero := drawPass_not_allZero seed
  rw [drawState_eq_drawPass]
  rw [drawPass_config] at hnonzero ⊢
  rw [Micro.startConstruction,
    microRun_succ, microStep_drawing_of_lt (count := 0) (w := .mix) rfl (by simp) (by simp),
    microRun_succ, microStep_drawing_of_lt (count := 1) (w := .loopMix) rfl (by simp) (by simp),
    microRun_one, microStep_drawing_of_last (count := 2) (w := .fastLoop) rfl (by simp) (by simp)]
  · simp only [setStateWord]
  · simpa only [setStateWord] using hnonzero

/-- The remaining warm-up micro-steps, from any value of the warm-up counter (rule R93). -/
theorem microRun_warmingUp (c : Config) (n : Nat) {k : Nat} (m : Micro) (hm : m.phase = .warmingUp k)
    (hk : k + n + 1 = c.warmupSteps) :
    microRun c (n + 1) m = { m with phase := .responding, gen := advance c (n + 1) m.gen } := by
  induction n generalizing k m with
  | zero =>
    have hlast : ¬k + 1 < c.warmupSteps := by omega
    simp only [microRun_one, microStep, hm, if_neg hlast, advance, Nat.zero_add]
  | succ n ih =>
    have hmore : k + 1 < c.warmupSteps := by omega
    rw [microRun_succ, advance_succ]
    simp only [microStep, hm, if_pos hmore]
    rw [ih _ rfl (by omega)]

/-- The offset addition and the warm-up after the draws (rules R93, R99). -/
theorem microRun_placement (g : Generator) (acc off out : Word) :
    microRun config (1 + (15 + 1)) { phase := .offsetting, gen := g, smAcc := acc, offset := off, output := out } =
      { phase := .responding, gen := placeStream config off g, smAcc := acc, offset := off, output := out } := by
  rw [microRun_add, microRun_one, microStep_offsetting rfl,
    microRun_warmingUp config 15 (k := 0) _ rfl config_warmupSteps.symm, placeStream_config, warmup, config_warmupSteps]

/-- Settles O58: the draws, then the offset addition and the warm-up; a sample is one micro-step. -/
theorem microEngineAgreesWithTheCommands : Obligations.MicroEngineAgreesWithTheCommands := by
  constructor
  · intro gen seed off
    have hsteps : 20 = 3 + (1 + (15 + 1)) := by decide
    rw [hsteps, microRun_add, microRun_draws, microRun_placement]
  · intro gen acc
    rw [microRun_one, Micro.startSampling, microStep_stepping rfl]

end Sys2Proof.Machine
end

section
/-!
PROOFS. An edge of one unit of a platform depends on that unit alone and replaces it alone (rule R51), and O57.
-/

namespace Sys2Proof.Machine

/-- An edge replaces the unit by a state that depends on that unit only: every platform with the same unit `k` makes the
same replacement (for an absent unit it changes nothing). -/
theorem stepUnit_eq_setUnit {k : Nat} {p q : Platform} (h : p.stepUnit k = .next q) :
    ∃ t, q = p.setUnit k t ∧ ∀ p' : Platform, p'.units[k]? = p.units[k]? → p'.stepUnit k = .next (p'.setUnit k t) := by
  rcases stepUnit_cases h with ⟨hk, rfl⟩ | ⟨s, t, hk, ht, rfl⟩
  · have setUnit_absent (p' : Platform) (hk' : p'.units[k]? = none) : p'.setUnit k q.first = p' :=
      platform_ext_units (by rw [units_setUnit, List.set_eq_of_length_le (List.getElem?_eq_none_iff.1 hk')])
    refine ⟨q.first, (setUnit_absent q hk).symm, fun p' hp' => ?_⟩
    rw [stepUnit_of_absent (hp'.trans hk), setUnit_absent p' (hp'.trans hk)]
  · exact ⟨t, rfl, fun p' hp' => stepUnit_of_next (hp'.trans hk) ht⟩

theorem units_setUnit_ne {j k : Nat} (h : j ≠ k) (t : State) (p : Platform) :
    (p.setUnit k t).units[j]? = p.units[j]? := by
  rw [units_setUnit, List.getElem?_set_ne h.symm]

theorem setUnit_comm {j k : Nat} (h : j ≠ k) (t u : State) (p : Platform) :
    (p.setUnit k t).setUnit j u = (p.setUnit j u).setUnit k t :=
  platform_ext_units (by simp only [units_setUnit, List.set_comm _ _ h.symm])

/-- Settles O57: the unit's own step by `stepUnit_cases`; the other two clauses because an edge is a `setUnit` that
depends on its own unit only. -/
theorem unitsAreIndependent : Obligations.UnitsAreIndependent := by
  refine ⟨?own, ?others, ?commute⟩
  case own =>
    intro k p q s hs h
    rcases stepUnit_cases h with ⟨hk, -⟩ | ⟨s', t, hk, ht, rfl⟩
    · simp [hs] at hk
    · obtain rfl : s = s' := Option.some.inj (hs.symm.trans hk)
      obtain ⟨hlt, -⟩ := List.getElem?_eq_some_iff.1 hs
      exact ⟨t, ht, by rw [units_setUnit, List.getElem?_set_self hlt]⟩
  case others =>
    intro j k p q hjk h
    obtain ⟨t, rfl, -⟩ := stepUnit_eq_setUnit h
    exact units_setUnit_ne hjk t p
  case commute =>
    intro j k p q q' hjk h h'
    obtain ⟨t, rfl, hk⟩ := stepUnit_eq_setUnit h
    obtain ⟨u, rfl, hj⟩ := stepUnit_eq_setUnit h'
    refine ⟨_, hj _ (units_setUnit_ne hjk t p), ?_⟩
    rw [setUnit_comm hjk, hk _ (units_setUnit_ne hjk.symm u p)]

end Sys2Proof.Machine
end

section
/-!
PROOFS. The bits of a little-endian number are those of its bytes (rules R42, R43), and O18.
-/

namespace Sys2Proof.Machine

/-- Bit `i` of the number is bit `i % 8` of byte `i / 8`. -/
theorem leValue_testBit (bytes : List Byte) (i : Nat) :
    (leValue bytes).testBit i = (bytes[i / 8]?.getD 0).getLsbD (i % 8) := by
  induction bytes generalizing i with
  | nil => simp [leValue]
  | cons b bs ih =>
    rw [leValue, Nat.add_comm, show 256 = 2 ^ 8 by rfl, Nat.testBit_two_pow_mul_add _ b.isLt]
    split
    · next hi => simp [Nat.div_eq_of_lt hi, Nat.mod_eq_of_lt hi, BitVec.testBit_toNat]
    · next hi =>
      obtain ⟨j, rfl⟩ := Nat.exists_eq_add_of_le' (Nat.le_of_not_lt hi)
      simp [ih]

/-- The integer seed has bit `i % 8` of byte `i / 8` at bit `i` (rule R42). -/
theorem fromLE8_getLsbD (bytes : List Byte) {i : Nat} (hi : i < 64) :
    (fromLE8 bytes).getLsbD i = (bytes[i / 8]?.getD 0).getLsbD (i % 8) := by
  rw [fromLE8, BitVec.getLsbD_ofNat, leValue_testBit, List.getElem?_take_of_lt (by omega)]
  simp [hi]

theorem length_opdBytes (opd : Operands) : (opdBytes opd).length = 32 := by
  simp [opdBytes, seedBytesLen]

theorem getElem?_opdBytes (opd : Operands) {k : Nat} (hk : k < 32) : (opdBytes opd)[k]? = some (opdByte opd k) := by
  simp [opdBytes, seedBytesLen, hk]

/-- The integer seed of the bus is its low 64 bits (rules R43, R67). -/
theorem fromLE8_opdBytes (opd : Operands) : fromLE8 (opdBytes opd) = opdSeed opd := by
  apply BitVec.eq_of_getLsbD_eq
  intro i hi
  rw [fromLE8_getLsbD _ hi, getElem?_opdBytes opd (by omega), Option.getD_some, opdByte, opdSeed,
    BitVec.getLsbD_extractLsb', BitVec.getLsbD_extractLsb', Nat.div_add_mod]
  simp [hi, Nat.mod_lt]

/-- Byte `k` stands at bits `8k+7..8k` of the integer seed. -/
theorem fromLE8_extractLsb' (bytes : List Byte) {k : Nat} (hk : k < 8) :
    (fromLE8 bytes).extractLsb' (8 * k) 8 = bytes[k]?.getD 0 := by
  apply BitVec.eq_of_getLsbD_eq
  intro j hj
  rw [BitVec.getLsbD_extractLsb', fromLE8_getLsbD bytes (by omega), Nat.mul_add_div (by decide), Nat.mul_add_mod,
    Nat.div_eq_of_lt hj, Nat.mod_eq_of_lt hj]
  simp [hj]

/-- The first eight bytes determine the integer seed. -/
theorem fromLE8_congr {bytes other : List Byte} (h : ∀ k < 8, other[k]? = bytes[k]?) :
    fromLE8 other = fromLE8 bytes := by
  apply BitVec.eq_of_getLsbD_eq
  intro i hi
  rw [fromLE8_getLsbD other hi, fromLE8_getLsbD bytes hi, h (i / 8) (by omega)]

/-- Settles O18: the lanes of the bus, then the bytes of the integer seed, each by its lemma. -/
theorem byteSeedIsLittleEndian : Obligations.ByteSeedIsLittleEndian := by
  refine ⟨fun opd => ⟨length_opdBytes opd, fun k hk => getElem?_opdBytes opd hk, fromLE8_opdBytes opd⟩,
    fun bytes hlen => ⟨fun k hk => ?_, fun other _ h => fromLE8_congr h⟩⟩
  rw [fromLE8_extractLsb' bytes hk, List.getElem?_eq_getElem (by omega), Option.getD_some]

end Sys2Proof.Machine
end

section
/-!
PROOFS. What accepting a word leaves besides the registers: a response held for the word's own latency, the parameters of
the block, and the coming inputs, which no command reads (rules R8, R61).
-/

namespace Sys2Proof.Machine

/-! ### Latencies -/

/-- The two states have the same latencies (rule R8). -/
structure SameLatencies (s t : State) : Prop where
  latSeed : t.latSeed = s.latSeed
  latNext : t.latNext = s.latNext
  latIllegal : t.latIllegal = s.latIllegal

theorem SameLatencies.trans {s t u : State} (h : SameLatencies s t) (h' : SameLatencies t u) : SameLatencies s u :=
  ⟨h'.latSeed.trans h.latSeed, h'.latNext.trans h.latNext, h'.latIllegal.trans h.latIllegal⟩

theorem SameLatencies.latencyOf {s t : State} (h : SameLatencies s t) (w : Byte) : latencyOf w t = latencyOf w s := by
  obtain ⟨hseed, hnext, hillegal⟩ := h
  simp only [Machine.latencyOf, hseed, hnext, hillegal]

theorem SameLatencies.actionPins {s t : State} (h : SameLatencies s t) (a : HostAction) :
    actionPins a t = actionPins a s := by
  cases a with
  | reset => rfl
  | send w opd => rw [Machine.actionPins, h.latencyOf]; rfl

/-- Accepting a word keeps the parameters, and that the block was reset. -/
theorem AcceptEnd.keeps_parameters {w : Byte} {opd : Operands} {s t : State} (h : AcceptEnd w opd s t) :
    SameLatencies s t ∧ t.wasReset = s.wasReset := by
  cases h <;> exact ⟨⟨rfl, rfl, rfl⟩, rfl⟩

/-- An instruction leaves its response to be presented after the latency of its class. -/
theorem exec_ctrl (i : Instr) (s : State) : ∃ t r, exec i s = .next t ∧ t.ctrl = .busy (instrLatency i s) r := by
  obtain ⟨t, ht, hcases⟩ := exec_cases i s
  rcases hcases with ⟨-, rfl⟩ | ⟨-, -, -, rfl⟩ | ⟨-, -, rfl⟩ | ⟨-, -, rfl⟩ | ⟨-, hi, -, g, a, rfl⟩ | ⟨-, -, hi, rfl⟩
  · exact ⟨_, _, ht, respond_ctrl _ _ _ _⟩
  · exact ⟨_, _, ht, raiseFault_ctrl _ _ _⟩
  · exact ⟨_, _, ht, raiseFault_ctrl _ _ _⟩
  · exact ⟨_, _, ht, raiseFault_ctrl _ _ _⟩
  · exact ⟨_, _, ht, by rw [finishConstruction_ctrl, instrLatency, if_pos hi]⟩
  · exact ⟨_, _, ht, by rw [finishSample_ctrl, instrLatency, if_neg (by simp [hi])]⟩

/-- Any word is accepted, and leaves its response to be presented after the latency of the word (rule R61). -/
theorem accept_ctrl (w : Byte) (opd : Operands) (s : State) :
    ∃ t r, accept w opd s = .next t ∧ t.ctrl = .busy (latencyOf w s) r := by
  rcases accept_cases w opd s with ⟨i, hd, e⟩ | ⟨hw, -, e⟩ | ⟨hw, -, e⟩ <;> rw [e]
  · rw [latencyOf_of_decode hd]
    exact exec_ctrl i s
  · rw [latencyOf_of_illegal hw]
    exact ⟨_, _, rfl, respond_ctrl _ _ _ _⟩
  · rw [latencyOf_of_illegal hw]
    exact ⟨_, _, rfl, raiseFault_ctrl _ _ _⟩

/-! ### Inputs -/

/-- The state with other levels at the coming edges. -/
def State.withInputs (ps : List Pins) (s : State) : State := { s with inputs := ps }

@[simp] theorem withInputs_ctrl (ps : List Pins) (s : State) : (s.withInputs ps).ctrl = s.ctrl := by rfl
@[simp] theorem withInputs_fault (ps : List Pins) (s : State) : (s.withInputs ps).fault = s.fault := by rfl
@[simp] theorem withInputs_seeded (ps : List Pins) (s : State) : (s.withInputs ps).seeded = s.seeded := by rfl
@[simp] theorem withInputs_gen (ps : List Pins) (s : State) : (s.withInputs ps).gen = s.gen := by rfl
@[simp] theorem withInputs_pins (p : Pins) (ps : List Pins) (s : State) : (s.withInputs (p :: ps)).pins = p := by rfl

/-- The operation neither reads nor writes the inputs. -/
def IgnoresInputs (f : State → State) : Prop := ∀ ps s, f (s.withInputs ps) = (f s).withInputs ps

theorem respond_withInputs (n : Nat) (k : StatusCode) (d : Word) : IgnoresInputs (respond n k d) :=
  fun _ _ => rfl

theorem raiseFault_withInputs (n : Nat) (k : StatusCode) : IgnoresInputs (raiseFault n k) :=
  fun _ _ => rfl

theorem finishConstruction_withInputs (g : Generator) (a : Word) : IgnoresInputs (finishConstruction g a) :=
  fun _ _ => rfl

theorem finishSample_withInputs (g : Generator) (d : Word) : IgnoresInputs (finishSample g d) :=
  fun _ _ => rfl

theorem unlessFaulted_withInputs (n : Nat) {body : State → State} (h : IgnoresInputs body) :
    IgnoresInputs (unlessFaulted n body) := by
  intro ps s
  rcases unlessFaulted_cases n body s with ⟨hf, e⟩ | ⟨hf, e⟩ <;> rw [e]
  · rw [unlessFaulted_of_fault (by simpa using hf), respond_withInputs]
  · rw [unlessFaulted_of_noFault (by simpa using hf), h]

theorem constructCheckedStream_withInputs (seed k n : Word) : IgnoresInputs (constructCheckedStream seed k n) := by
  intro ps s
  unfold constructCheckedStream
  split
  · exact raiseFault_withInputs _ _ ps s
  · split
    · exact raiseFault_withInputs _ _ ps s
    · exact finishConstruction_withInputs _ _ ps s

theorem sample_withInputs (view : Word → Word) : IgnoresInputs (sample view) := by
  intro ps s
  unfold sample
  rw [withInputs_seeded, withInputs_gen]
  split
  · exact finishSample_withInputs _ _ ps s
  · exact raiseFault_withInputs _ _ ps s

theorem execBody_withInputs (i : Instr) : IgnoresInputs (execBody i) := by
  cases i with
  | seedU64 seed => exact finishConstruction_withInputs _ _
  | seedBytes bytes => exact finishConstruction_withInputs _ _
  | seedStream seed k n => exact constructCheckedStream_withInputs seed k n
  | nextU64 => exact sample_withInputs id
  | nextU32 => exact sample_withInputs highHalf

theorem takeIllegal_withInputs : IgnoresInputs takeIllegal :=
  fun ps s => unlessFaulted_withInputs s.latIllegal (raiseFault_withInputs s.latIllegal .illegalCommand) ps s

/-- Accepting a word does the same whatever the coming inputs are, and leaves them. -/
theorem accept_withInputs {w : Byte} {opd : Operands} {s t : State} (h : accept w opd s = .next t) (ps : List Pins) :
    accept w opd (s.withInputs ps) = .next (t.withInputs ps) := by
  cases hd : decode w opd with
  | some i =>
    rw [accept_of_decode hd, exec_eq_unlessFaulted] at h ⊢
    obtain rfl := Host.Outcome.next.inj h
    exact congrArg _ (unlessFaulted_withInputs (instrLatency i s) (execBody_withInputs i) ps s)
  | none =>
    rw [accept_of_illegal hd] at h ⊢
    obtain rfl := Host.Outcome.next.inj h
    exact congrArg _ (takeIllegal_withInputs ps s)

end Sys2Proof.Machine
end

section
/-!
PROOFS. The edges of one host action, phase by phase (rule R61), and O53.
-/

namespace Sys2Proof.Machine

/-! ### Edges -/

theorem step_withInputs_of_rst {p : Pins} (hp : p.rst = true) (ps : List Pins) (s : State) :
    step (s.withInputs (p :: ps)) = .next (s.takeReset.withInputs ps) :=
  step_of_rst (s := s.withInputs (p :: ps)) hp

theorem step_withInputs {p : Pins} {s : State} (hp : p.rst = false) (hs : s.wasReset = true) (ps : List Pins) :
    step (s.withInputs (p :: ps)) = runEdge p (s.withInputs ps) :=
  step_of_running (s := s.withInputs (p :: ps)) hp hs

theorem observeEdges_zero (s : State) : observeEdges 0 s = some (s, []) := by rfl

/-- One edge, then the rest. -/
theorem observeEdges_succ {s t : State} (h : step s = .next t) (n : Nat) :
    observeEdges (n + 1) s = (observeEdges n t).map fun x => (x.1, (takenResponse s).toList ++ x.2) := by
  rw [observeEdges, h]
  dsimp only
  cases observeEdges n t <;> rfl

/-- An edge at which no response is taken. -/
theorem observeEdges_succ_of_none {s t : State} (h : step s = .next t) (htaken : takenResponse s = none) (n : Nat) :
    observeEdges (n + 1) s = observeEdges n t := by
  rw [observeEdges_succ h, htaken]
  exact Option.map_id'

/-- Some edges, then the rest. -/
theorem observeEdges_add {m : Nat} {s t : State} {rs : List Response} (h : observeEdges m s = some (t, rs)) (n : Nat) :
    observeEdges (m + n) s = (observeEdges n t).map fun x => (x.1, rs ++ x.2) := by
  induction m generalizing s rs with
  | zero =>
    obtain ⟨rfl, rfl⟩ := Prod.mk.inj (Option.some.inj h)
    rw [Nat.zero_add]
    exact Option.map_id'.symm
  | succ m ih =>
    cases hstep : step s with
    | next u =>
      rw [observeEdges_succ hstep, Option.map_eq_some_iff] at h
      obtain ⟨⟨t', rs'⟩, hrest, heq⟩ := h
      obtain ⟨rfl, rfl⟩ := Prod.mk.inj heq
      rw [Nat.succ_add, observeEdges_succ hstep, ih hrest, Option.map_map]
      congr 1
      funext x
      simp
    | fault f => rw [observeEdges, hstep] at h; cases h
    | refused f => rw [observeEdges, hstep] at h; cases h

/-- The quiet edge at which a command in progress presents its response. -/
theorem step_quiet_present {s : State} {n : Nat} {r : Response} (hc : s.ctrl = .busy n r) (hs : s.wasReset = true)
    (hn : n ≤ 1) (ps : List Pins) :
    step (s.withInputs (Pins.quiet :: ps)) = .next ((s.present r).withInputs ps) := by
  rw [step_withInputs rfl hs, runEdge_busy (by simpa using hc), if_pos hn]
  rfl

/-- A quiet edge at which a command in progress waits. -/
theorem step_quiet_wait {s : State} {n : Nat} {r : Response} (hc : s.ctrl = .busy n r) (hs : s.wasReset = true)
    (hn : 1 < n) (ps : List Pins) :
    step (s.withInputs (Pins.quiet :: ps)) = .next ((s.wait (n - 1) r).withInputs ps) := by
  rw [step_withInputs rfl hs, runEdge_busy (by simpa using hc), if_neg (by omega)]
  rfl

/-- A command in progress presents its response after as many quiet edges as its latency, one if that is 0 (log 2). -/
theorem observeEdges_wait {s : State} {n : Nat} {r : Response} (hc : s.ctrl = .busy n r) (hs : s.wasReset = true)
    (ps : List Pins) :
    observeEdges (max 1 n) (s.withInputs (List.replicate (max 1 n) Pins.quiet ++ ps)) =
      some ((s.present r).withInputs ps, []) := by
  induction n generalizing s with
  | zero => exact observeEdges_succ_of_none (step_quiet_present hc hs (Nat.zero_le 1) ps) rfl 0
  | succ n ih =>
    rcases Nat.eq_zero_or_pos n with rfl | hn
    · exact observeEdges_succ_of_none (step_quiet_present hc hs (Nat.le_refl 1) ps) rfl 0
    · have hmax : max 1 (n + 1) = max 1 n + 1 := by omega
      rw [hmax, List.replicate_succ, List.cons_append,
        observeEdges_succ_of_none (step_quiet_wait hc hs (Nat.succ_lt_succ hn) _) rfl]
      exact ih (s := s.wait n r) rfl hs

/-- The edge at which a presented response is taken. -/
theorem observeEdges_take {s : State} {r : Response} (hc : s.ctrl = .responding r) (hs : s.wasReset = true)
    (ps : List Pins) : observeEdges 1 (s.withInputs (takePins :: ps)) = some (s.release.withInputs ps, [r]) := by
  have hstep : step (s.withInputs (takePins :: ps)) = .next (s.release.withInputs ps) := by
    rw [step_withInputs rfl hs, runEdge_responding (by simpa using hc)]
    rfl
  have htaken : takenResponse (s.withInputs (takePins :: ps)) = some r := by
    simp [takenResponse, takePins, Pins.quiet, State.rspPort, hc]
  rw [observeEdges_succ hstep, observeEdges_zero, htaken]
  rfl

/-- The edge at which an idle block accepts the word that is offered. -/
theorem step_offer {w : Byte} {opd : Operands} {s t : State} (hs : s.canTransact = true)
    (ht : accept w opd s = .next t) (ps : List Pins) :
    step (s.withInputs (offerPins w opd :: ps)) = .next (t.withInputs ps) := by
  obtain ⟨hreset, hidle⟩ := (canTransact_iff s).1 hs
  rw [step_withInputs rfl hreset, runEdge_idle (by simpa using hidle)]
  exact accept_withInputs ht ps

/-! ### Actions -/

/-- What performing the action `a` on `s` must come to: the sequential run has a result, which is again an idle block with
the same latencies, and the edges of the action give this result, whatever inputs follow. -/
structure CarriedOut (a : HostAction) (s t : State) (rs : List Response) : Prop where
  run : ∀ as, hostRun (a :: as) s = (hostRun as t).map fun x => (x.1, rs ++ x.2)
  idle : t.canTransact = true
  latencies : SameLatencies s t
  edges : ∀ ps, observeEdges (actionPins a s).length (s.withInputs (actionPins a s ++ ps)) =
    some (t.withInputs ps, rs)

theorem carriedOut_reset (s : State) : CarriedOut .reset s s.takeReset [] where
  run as := by
    rw [hostRun_reset]
    exact Option.map_id'.symm
  idle := canTransact_takeReset s
  latencies := ⟨rfl, rfl, rfl⟩
  edges ps := observeEdges_succ_of_none (step_withInputs_of_rst rfl ps s) rfl 0

/-- A command is accepted at one edge, presents its response after its latency, and the response is taken (rule R61). -/
theorem carriedOut_send (w : Byte) (opd : Operands) {s : State} (hs : s.canTransact = true) :
    ∃ t rs, CarriedOut (.send w opd) s t rs := by
  obtain ⟨t, r, haccept, hbusy⟩ := accept_ctrl w opd s
  obtain ⟨hlat, hreset⟩ := (acceptEnd_of_accept haccept).keeps_parameters
  replace hreset : t.wasReset = true := hreset.trans ((canTransact_iff s).1 hs).1
  refine ⟨(t.present r).release, [r], ?run, (canTransact_iff _).2 ⟨hreset, rfl⟩,
    ⟨hlat.latSeed, hlat.latNext, hlat.latIllegal⟩, ?edges⟩
  case run => exact hostRun_send (transact_of_accept hs haccept hbusy)
  case edges =>
    intro ps
    rw [actionPins, List.cons_append, List.append_assoc, List.length_cons,
      observeEdges_succ_of_none (step_offer hs haccept _) rfl, List.length_append, List.length_replicate,
      observeEdges_add (observeEdges_wait hbusy hreset _)]
    exact congrArg (Option.map _) (observeEdges_take (s := t.present r) rfl hreset ps)

theorem carriedOut_of_canTransact (a : HostAction) {s : State} (hs : s.canTransact = true) :
    ∃ t rs, CarriedOut a s t rs := by
  cases a with
  | reset => exact ⟨_, _, carriedOut_reset s⟩
  | send w opd => exact carriedOut_send w opd hs

/-- The edges of a sequence of actions, on a block that can start a transaction, give the result of the sequential run. -/
theorem observeEdges_actions (actions : List HostAction) {s : State} (hs : s.canTransact = true) (rest : List Pins) :
    ∃ t rs, hostRun actions s = some (t, rs) ∧ t.canTransact = true ∧
      observeEdges (actions.flatMap (fun a => actionPins a s)).length
          (s.withInputs (actions.flatMap (fun a => actionPins a s) ++ rest)) =
        some (t.withInputs rest, rs) := by
  induction actions generalizing s with
  | nil => exact ⟨s, [], hostRun_nil s, hs, observeEdges_zero _⟩
  | cons a as ih =>
    obtain ⟨t, rs, hact⟩ := carriedOut_of_canTransact a hs
    obtain ⟨u, rs', hrun, hidle, hedges⟩ := ih hact.idle
    have samePins : (fun a => actionPins a t) = fun a => actionPins a s := funext hact.latencies.actionPins
    refine ⟨u, rs ++ rs', by rw [hact.run, hrun]; rfl, hidle, ?_⟩
    rw [List.flatMap_cons, List.length_append, List.append_assoc, observeEdges_add (hact.edges _), ← samePins, hedges]
    rfl

/-- Settles O53, by induction on the actions: each is carried out by its own edges and leaves an idle block. -/
theorem edgesCarryOutTheTransactions : Obligations.EdgesCarryOutTheTransactions := by
  intro actions s rest hidle hreset
  obtain ⟨t, rs, hrun, ht, hedges⟩ := observeEdges_actions actions ((canTransact_iff s).2 ⟨hreset, hidle⟩) rest
  exact ⟨t, rs, hrun, ((canTransact_iff t).1 ht).2, hedges⟩

end Sys2Proof.Machine
end

section
/-!
PROOFS. The operand lanes read back what the encoder packs into them, and the encoder what the decoder read (rules R63, R67,
R70); then the command word (rules R64, R69); O37, O38, O36 and O40.
-/

namespace Sys2Proof.Machine

/-! ### The lanes of the operand bus -/

/-- Bit `i` of the bus that carries three words (rule R63). -/
theorem packWords_getLsbD (seed k n : Word) (i : Nat) :
    (packWords seed k n).getLsbD i =
      if i < 64 then seed.getLsbD i
      else if i < 128 then k.getLsbD (i - 64)
      else if i < 192 then n.getLsbD (i - 128) else false := by
  change (0#64 ++ n ++ k ++ seed : BitVec (64 + 64 + 64 + 64)).getLsbD i = _
  simp only [BitVec.getLsbD_append, BitVec.getLsbD_zero, Nat.sub_sub]
  grind

@[simp] theorem opdSeed_packWords (seed k n : Word) : opdSeed (packWords seed k n) = seed := by
  apply BitVec.eq_of_getLsbD_eq
  intro i hi
  rw [opdSeed, BitVec.getLsbD_extractLsb', packWords_getLsbD, Nat.zero_add, if_pos hi, decide_eq_true hi, Bool.true_and]

@[simp] theorem opdStreamIndex_packWords (seed k n : Word) : opdStreamIndex (packWords seed k n) = k := by
  apply BitVec.eq_of_getLsbD_eq
  intro i hi
  rw [opdStreamIndex, BitVec.getLsbD_extractLsb', packWords_getLsbD, if_neg (by omega), if_pos (by omega),
    Nat.add_sub_cancel_left, decide_eq_true hi, Bool.true_and]

@[simp] theorem opdTotalStreams_packWords (seed k n : Word) : opdTotalStreams (packWords seed k n) = n := by
  apply BitVec.eq_of_getLsbD_eq
  intro i hi
  rw [opdTotalStreams, BitVec.getLsbD_extractLsb', packWords_getLsbD, if_neg (by omega), if_neg (by omega),
    if_pos (by omega), Nat.add_sub_cancel_left, decide_eq_true hi, Bool.true_and]

/-- Bit `i` of the bus that carries a byte seed is bit `i % 8` of byte `i / 8` (rule R43). -/
theorem packBytes_getLsbD (bytes : List Byte) {i : Nat} (hi : i < 256) :
    (packBytes bytes).getLsbD i = (bytes[i / 8]?.getD 0).getLsbD (i % 8) := by
  rw [packBytes, BitVec.getLsbD_ofNat, leValue_testBit, decide_eq_true hi, Bool.true_and]

theorem opdByte_packBytes (bytes : List Byte) {k : Nat} (hk : k < 32) :
    opdByte (packBytes bytes) k = bytes[k]?.getD 0 := by
  apply BitVec.eq_of_getLsbD_eq
  intro j hj
  rw [opdByte, BitVec.getLsbD_extractLsb', packBytes_getLsbD bytes (by omega), Nat.mul_add_div (by decide),
    Nat.mul_add_mod, Nat.div_eq_of_lt hj, Nat.mod_eq_of_lt hj, decide_eq_true hj, Bool.true_and, Nat.add_zero]

/-- 32 bytes come back from the bus that carries them (rules R43, R70). -/
theorem opdBytes_packBytes {bytes : List Byte} (h : bytes.length = seedBytesLen) :
    opdBytes (packBytes bytes) = bytes := by
  have hlen : bytes.length = 32 := h
  apply List.ext_getElem (by rw [length_opdBytes, hlen])
  intro k _ hk
  rw [← Option.some_inj, ← List.getElem?_eq_getElem, getElem?_opdBytes _ (by omega), opdByte_packBytes _ (by omega),
    List.getElem?_eq_getElem hk, Option.getD_some]

/-- The 32 bytes of a bus make up all of it (rule R63). -/
theorem packBytes_opdBytes (opd : Operands) : packBytes (opdBytes opd) = opd := by
  apply BitVec.eq_of_getLsbD_eq
  intro i hi
  rw [packBytes_getLsbD _ hi, getElem?_opdBytes opd (by omega), Option.getD_some, opdByte,
    BitVec.getLsbD_extractLsb', Nat.div_add_mod, decide_eq_true (Nat.mod_lt i (by decide)), Bool.true_and]

/-- Bit `i` of a bus of which only the low `n` bits are kept. -/
theorem and_lowMask_getLsbD (opd : Operands) (n : Nat) {i : Nat} (hi : i < 256) :
    (opd &&& BitVec.ofNat 256 (2 ^ n - 1)).getLsbD i = (opd.getLsbD i && decide (i < n)) := by
  rw [BitVec.getLsbD_and, BitVec.getLsbD_ofNat, Nat.testBit_two_pow_sub_one, decide_eq_true hi, Bool.true_and]

/-- The bus of SEED_U64 keeps the bits 63..0 (rule R63). -/
theorem packWords_opdSeed (opd : Operands) :
    packWords (opdSeed opd) 0 0 = opd &&& BitVec.ofNat 256 (2 ^ 64 - 1) := by
  apply BitVec.eq_of_getLsbD_eq
  intro i hi
  rw [and_lowMask_getLsbD opd 64 hi, packWords_getLsbD, opdSeed, BitVec.getLsbD_extractLsb']
  by_cases h64 : i < 64 <;> simp [h64]

/-- The bus of SEED_STREAM keeps the bits 191..0 (rule R63). -/
theorem packWords_opd (opd : Operands) :
    packWords (opdSeed opd) (opdStreamIndex opd) (opdTotalStreams opd) = opd &&& BitVec.ofNat 256 (2 ^ 192 - 1) := by
  apply BitVec.eq_of_getLsbD_eq
  intro i hi
  rw [and_lowMask_getLsbD opd 192 hi, packWords_getLsbD, opdSeed, opdStreamIndex, opdTotalStreams]
  simp only [BitVec.getLsbD_extractLsb']
  split_ifs with h64 h128 h192
  · simp [h64, show i < 192 by omega]
  · simp [show i - 64 < 64 by omega, show 64 + (i - 64) = i by omega, show i < 192 by omega]
  · simp [show i - 128 < 64 by omega, show 128 + (i - 128) = i by omega, h192]
  · simp [h192]

/-! ### The command word -/

theorem encodeName_decodeWord {w : Byte} (h : decodeWord w ≠ .illegal) : encodeName (decodeWord w) = w := by
  revert w
  decide

theorem name_ne_illegal (i : Instr) : i.name ≠ .illegal := by
  cases i <;> simp [Instr.name]

/-- What the decoder makes of a word is an instruction of the operation the word spells (rules R67, R69). -/
theorem name_of_decode {w : Byte} {opd : Operands} {i : Instr} (h : decode w opd = some i) : i.name = decodeWord w := by
  rw [decode] at h
  cases hw : decodeWord w <;> rw [hw] at h <;> cases h <;> rfl

theorem encodeWord_of_decode {w : Byte} {opd : Operands} {i : Instr} (h : decode w opd = some i) :
    encodeWord i = w := by
  rw [encodeWord, name_of_decode h]
  exact encodeName_decodeWord (name_of_decode h ▸ name_ne_illegal i)

theorem assembleOperands_encodeOperands {i : Instr} (h : i.wellFormed = true) :
    assembleOperands i.name (encodeOperands i) = some i := by
  cases i with
  | seedU64 seed => simp [Instr.name, encodeOperands, assembleOperands]
  | seedBytes bytes => simp [Instr.name, encodeOperands, assembleOperands, opdBytes_packBytes (beq_iff_eq.1 h)]
  | seedStream seed k n => simp [Instr.name, encodeOperands, assembleOperands]
  | nextU64 => rfl
  | nextU32 => rfl

/-- Settles O37: the word spells the operation, and each lane of the bus reads back its operand. -/
theorem decodeOfEncodeIsTheInstruction : Obligations.DecodeOfEncodeIsTheInstruction := by
  intro i hi
  obtain ⟨-, hname, -⟩ := Laws.CommandWord.encodeName_legal i.name (name_ne_illegal i)
  rw [encode, decode, encodeWord, hname, assembleOperands_encodeOperands hi]

/-- What decodes is what its own operation reads off the bus (rule R67). -/
theorem assembleOperands_name_of_decode {w : Byte} {opd : Operands} {i : Instr} (h : decode w opd = some i) :
    assembleOperands i.name opd = some i := by
  rw [name_of_decode h]
  exact h

theorem wellFormed_of_decode {w : Byte} {opd : Operands} {i : Instr} (h : decode w opd = some i) :
    i.wellFormed = true := by
  cases i with
  | seedBytes bytes =>
    cases assembleOperands_name_of_decode h
    exact beq_iff_eq.2 (length_opdBytes opd)
  | _ => rfl

/-- Settles O38: the word by `encodeWord_of_decode`, the bus by the lemma of the command's lanes. -/
theorem encodeOfDecodeIsCanonical : Obligations.EncodeOfDecodeIsCanonical := by
  intro w opd i h
  refine ⟨wellFormed_of_decode h, encodeWord_of_decode h, ?_⟩
  have hopd := assembleOperands_name_of_decode h
  cases i <;> cases hopd
  case seedU64 => exact packWords_opdSeed opd
  case seedBytes => exact packBytes_opdBytes opd
  case seedStream => exact packWords_opd opd
  case nextU64 => rfl
  case nextU32 => rfl

/-- Settles O36: the if-chain of `decodeOp`, compared with the numbers of rule R64 on the 16 values of `OP`. -/
theorem decodeIsTotal : Obligations.DecodeIsTotal := by
  intro w
  unfold decodeWord rsvdField opField
  generalize w.extractLsb' 0 4 = op
  congr 1
  revert op
  decide

/-- Settles O40: fixed words, run through the decoder. -/
theorem exampleEncodingsDecode : Obligations.ExampleEncodingsDecode := by
  unfold Obligations.ExampleEncodingsDecode
  decide

end Sys2Proof.Machine
end

section
/-!
PROOFS. Accepting a word: the response data of each command (rule R66), operand bits that are not read (rule R68) and words
that spell no command (rules R65, R132); O33, O39 and O29.
-/

namespace Sys2Proof.Machine

/-! ### Response data (rule R66) -/

theorem statusBits_toNat_le (k : StatusCode) : (statusBits k).toNat ≤ 5 := by
  cases k <;> decide

theorem statusBits_eq_zero_iff (k : StatusCode) : statusBits k = 0 ↔ k = .ok := by
  cases k <;> decide

/-- The data rule R66 gives to a response with this status to the word `w`, where `word` is what a step would return. -/
def ruleData (w : Byte) (status : BitVec 3) (word : Word) : Word :=
  if status = 0 ∧ w = 0x04 then word else if status = 0 ∧ w = 0x05 then highHalf word else 0

/-- An error carries no data. -/
theorem ruleData_of_error {k : StatusCode} (hk : k ≠ .ok) (w : Byte) (word : Word) :
    ruleData w (statusBits k) word = 0 := by
  have hstatus : statusBits k ≠ 0 := mt (statusBits_eq_zero_iff k).1 hk
  rw [ruleData, if_neg (fun h => hstatus h.1), if_neg (fun h => hstatus h.1)]

/-- A construction carries no data. -/
theorem ruleData_of_construction {i : Instr} (hi : isConstruction i = true) (status : BitVec 3) (word : Word) :
    ruleData (encodeWord i) status word = 0 := by
  cases i
  case nextU64 => cases hi
  case nextU32 => cases hi
  all_goals simp [ruleData, encodeWord, Instr.name, encodeName]

/-- A sample carries the word, or its high half. -/
theorem ruleData_of_sample {i : Instr} (hi : isConstruction i = false) (word : Word) :
    ruleData (encodeWord i) (statusBits .ok) word = sampleView i word := by
  cases i
  case nextU64 => rfl
  case nextU32 => rfl
  all_goals cases hi

/-- The response held in `t` has a status code, and the data that rule R66 gives the word `w`, accepted in `s`, with this
status. -/
def AnswersByRule (w : Byte) (s t : State) : Prop :=
  ∃ k, t.held = some { status := statusBits k, data := ruleData w (statusBits k) (coreStep config s.gen).1 }

theorem answersByRule_respond_faulted (w : Byte) (n : Nat) (s : State) :
    AnswersByRule w s (respond n .faulted config.noWordData s) :=
  ⟨.faulted, by rw [respond_held, config_noWordData, ruleData_of_error (by decide)]⟩

theorem answersByRule_raiseFault (w : Byte) (n : Nat) {k : StatusCode} (hk : k ≠ .ok) (s : State) :
    AnswersByRule w s (raiseFault n k s) :=
  ⟨k, by rw [raiseFault_held, config_noWordData, ruleData_of_error hk]⟩

theorem exec_answersByRule (i : Instr) (s : State) :
    ∃ t, exec i s = .next t ∧ AnswersByRule (encodeWord i) s t := by
  obtain ⟨t, ht, hcases⟩ := exec_cases i s
  refine ⟨t, ht, ?_⟩
  rcases hcases with ⟨-, rfl⟩ | ⟨-, -, -, rfl⟩ | ⟨-, -, rfl⟩ | ⟨-, -, rfl⟩ | ⟨-, hi, -, g, a, rfl⟩ | ⟨-, -, hi, rfl⟩
  · exact answersByRule_respond_faulted _ _ s
  · exact answersByRule_raiseFault _ _ (by decide) s
  · exact answersByRule_raiseFault _ _ (by decide) s
  · exact answersByRule_raiseFault _ _ (by decide) s
  · exact ⟨.ok, by rw [finishConstruction_held, config_noWordData, ruleData_of_construction hi]⟩
  · exact ⟨.ok, by rw [finishSample_held, ruleData_of_sample hi]⟩

theorem accept_answersByRule (w : Byte) (opd : Operands) (s : State) :
    ∃ t, accept w opd s = .next t ∧ AnswersByRule w s t := by
  rcases accept_cases w opd s with ⟨i, hd, e⟩ | ⟨-, -, e⟩ | ⟨-, -, e⟩ <;> rw [e]
  · rw [← encodeWord_of_decode hd]
    exact exec_answersByRule i s
  · exact ⟨_, rfl, answersByRule_respond_faulted w _ s⟩
  · exact ⟨_, rfl, answersByRule_raiseFault w _ (by decide) s⟩

/-- Settles O33: every way a command can end answers as rule R66 says. -/
theorem responseDataByCommand : Obligations.ResponseDataByCommand := by
  intro w opd s
  obtain ⟨t, ht, k, hheld⟩ := accept_answersByRule w opd s
  exact ⟨t, _, ht, hheld, statusBits_toNat_le k, rfl⟩

/-! ### Operand bits that are not read (rule R68) -/

theorem accept_seedU64 (opd : Operands) (s : State) : accept 0x01 opd s = exec (.seedU64 (opdSeed opd)) s :=
  accept_of_decode rfl s

/-- SEED_BYTES runs as SEED_U64 does on the same bus (rules R42, R96). -/
theorem accept_seedBytes (opd : Operands) (s : State) : accept 0x02 opd s = exec (.seedU64 (opdSeed opd)) s := by
  rw [accept_of_decode (i := .seedBytes (opdBytes opd)) rfl, ← fromLE8_opdBytes]
  rfl

theorem accept_seedStream (opd : Operands) (s : State) :
    accept 0x03 opd s = exec (.seedStream (opdSeed opd) (opdStreamIndex opd) (opdTotalStreams opd)) s :=
  accept_of_decode rfl s

theorem accept_nextU64 (opd : Operands) (s : State) : accept 0x04 opd s = exec .nextU64 s :=
  accept_of_decode rfl s

theorem accept_nextU32 (opd : Operands) (s : State) : accept 0x05 opd s = exec .nextU32 s :=
  accept_of_decode rfl s

/-- A field below bit 192 is a field of the bits 191..0. -/
theorem extractLsb'_of_low {opd opd' : Operands} (h : opd.extractLsb' 0 192 = opd'.extractLsb' 0 192) {k : Nat}
    (hk : k + 64 ≤ 192) : opd.extractLsb' k 64 = opd'.extractLsb' k 64 := by
  have hfield (x : Operands) : x.extractLsb' k 64 = (x.extractLsb' 0 192).extractLsb' k 64 := by
    rw [BitVec.extractLsb'_extractLsb'_of_le hk]
  rw [hfield, hfield, h]

/-- Settles O39: each command is run on the fields it reads, and the buses agree on these. -/
theorem unreadOperandBitsAreIgnored : Obligations.UnreadOperandBitsAreIgnored := by
  intro opd opd' s
  refine ⟨fun h => ?_, fun h => ?_, by rw [accept_nextU64, accept_nextU64], by rw [accept_nextU32, accept_nextU32]⟩
  · have hseed : opdSeed opd = opdSeed opd' := h
    rw [accept_seedU64, accept_seedU64, accept_seedBytes, accept_seedBytes, hseed]
    exact ⟨rfl, rfl⟩
  · rw [accept_seedStream, accept_seedStream, opdSeed, opdStreamIndex, opdTotalStreams,
      extractLsb'_of_low h (k := 0) (by decide), extractLsb'_of_low h (k := 64) (by decide),
      extractLsb'_of_low h (k := 128) (by decide)]
    rfl

/-! ### Words that spell no command (rules R65, R132) -/

theorem decodeOp_eq_illegal {op : BitVec 4} (h : op = 0 ∨ 6 ≤ op.toNat) : decodeOp op = .illegal := by
  revert op
  decide

theorem decodeWord_eq_illegal {w : Byte} (h : rsvdField w ≠ 0 ∨ opField w = 0 ∨ 6 ≤ (opField w).toNat) :
    decodeWord w = .illegal := by
  rw [decodeWord]
  split
  · rfl
  · next hrsvd => exact decodeOp_eq_illegal (h.resolve_left hrsvd)

/-- Settles O29: the word decodes to nothing, and the answer is fault entry with IllegalCommand. -/
theorem illegalWordsRaiseIllegalCommand : Obligations.IllegalWordsRaiseIllegalCommand := by
  intro w opd s hw hs
  have hdecode : decode w opd = none := (decode_eq_none_iff w opd).2 (decodeWord_eq_illegal hw)
  rw [accept_of_illegal hdecode, takeIllegal, unlessFaulted_of_noFault hs, raiseFault_eq]
  rfl

end Sys2Proof.Machine
end

section
/-!
PROOFS. Edges: the edge that runs a decoded command, the wait until its response is presented, and the edges until it is taken
(rules R61, R161, R164); O43, O49 and O51.
-/

namespace Sys2Proof.Machine

/-! ### The edge that accepts a command -/

/-- An edge at which a command is accepted (rule R61). -/
theorem step_of_accepts {s : State} (hs : s.wasReset = true) (h : s.accepts = true) :
    step s = accept s.pins.cmdWord s.pins.cmdOpd s.nextInputs := by
  obtain ⟨hidle, hrst, hvalid⟩ := (accepts_iff s).1 h
  rw [step_of_running hrst hs, runEdge_idle (by simpa using hidle), if_pos hvalid]

@[simp] theorem settle_ctrl (s : State) : s.settle.ctrl = .idle := by
  cases h : s.ctrl <;> simp [State.settle, h]

@[simp] theorem settle_inputs (s : State) : s.settle.inputs = s.inputs := by
  cases h : s.ctrl <;> simp [State.settle, h]

/-- The offer is made at the very next edge (log 7). -/
theorem accepts_withOffer (s : State) (w : Byte) (opd : Operands) : (s.withOffer w opd).accepts = true :=
  (accepts_iff _).2 ⟨settle_ctrl s, rfl, rfl⟩

/-- After the offer the host's other inputs come. -/
theorem nextInputs_withOffer (s : State) (w : Byte) (opd : Operands) :
    (s.withOffer w opd).nextInputs = { s.settle with wasReset := true } := by
  rw [State.withOffer, State.nextInputs, List.tail_cons, ← settle_inputs s]

/-- Settles O43: an accepting edge runs what the word decodes to; `withFetchWord` makes the next edge accept. -/
theorem stepRunsTheDecodedCommand : Obligations.StepRunsTheDecodedCommand := by
  refine ⟨fun s i hs hidle hrst hvalid hdecode => ?_, fun s nbits w i hdecode => ?_⟩
  · rw [step_of_accepts hs ((accepts_iff s).2 ⟨hidle, hrst, hvalid⟩), accept_of_decode hdecode]
  · rw [State.withFetchWord, step_of_accepts rfl (accepts_withOffer ..), nextInputs_withOffer]
    exact accept_of_decode hdecode _

/-! ### A presented response (rule R161) -/

theorem rspPort_eq_some_iff {s : State} {r : Response} : s.rspPort = some r ↔ s.ctrl = .responding r := by
  cases h : s.ctrl <;> simp [State.rspPort, h]

/-- The edge without reset at which a presented response is taken or stays. -/
theorem step_responding {s t : State} {r : Response} (h : step s = .next t) (hc : s.ctrl = .responding r)
    (hrst : s.pins.rst = false) : t = if s.pins.rspReady then s.nextInputs.release else s.nextInputs := by
  rcases step_cases h with ⟨hr, -⟩ | ⟨-, hs, -⟩
  · rw [hr] at hrst
    cases hrst
  · rw [step_of_running hrst hs, runEdge_responding (s := s.nextInputs) hc] at h
    exact (Host.Outcome.next.inj h).symm

/-- Settles O49: the controller is responding, and leaves only when the response is taken. -/
theorem responseStaysUntilTaken : Obligations.ResponseStaysUntilTaken := by
  intro s t r h hport hrst
  have hc : s.ctrl = .responding r := rspPort_eq_some_iff.1 hport
  have ht := step_responding h hc hrst
  refine ⟨by simp [State.cmdReady, hc], fun hready => ?held, fun hready => ?taken⟩
  case held =>
    obtain rfl : t = s.nextInputs := by simpa [hready] using ht
    exact ⟨hport, by simp [takenResponse, hready]⟩
  case taken =>
    obtain rfl : t = s.nextInputs.release := by simpa [hready] using ht
    exact ⟨by simp [takenResponse, hrst, hready, hport], rfl, fun hnext => by rw [State.cmdReady, hnext]; rfl⟩

/-! ### The wait for the response (rule R164) -/

/-- Reset is not asserted at the next `n` edges. -/
def NoReset (n : Nat) (s : State) : Prop := ∀ p ∈ s.inputs.take n, p.rst = false

/-- Where the host has put nothing on the inputs, reset is low too (log 6). -/
theorem NoReset.pins {n : Nat} {s : State} (h : NoReset (n + 1) s) : s.pins.rst = false := by
  unfold NoReset at h
  cases hin : s.inputs <;> simp_all [State.pins, Pins.quiet]

theorem NoReset.tail {n : Nat} {s t : State} (h : NoReset (n + 1) s) (ht : t.inputs = s.inputs.tail) : NoReset n t := by
  intro p hp
  apply h
  cases hin : s.inputs <;> simp_all

/-- An accepted command leaves the coming inputs. -/
theorem AcceptEnd.inputs {w : Byte} {opd : Operands} {s t : State} (h : AcceptEnd w opd s t) : t.inputs = s.inputs := by
  cases h <;> rfl

/-- The edge without reset at which a command in progress presents its response. -/
theorem step_busy_present {s : State} {n : Nat} {r : Response} (hc : s.ctrl = .busy n r) (hs : s.wasReset = true)
    (hrst : s.pins.rst = false) (hn : n ≤ 1) : step s = .next (s.nextInputs.present r) := by
  rw [step_of_running hrst hs, runEdge_busy (s := s.nextInputs) hc, if_pos hn]

/-- An edge without reset at which a command in progress waits. -/
theorem step_busy_wait {s : State} {n : Nat} {r : Response} (hc : s.ctrl = .busy n r) (hs : s.wasReset = true)
    (hrst : s.pins.rst = false) (hn : 1 < n) : step s = .next (s.nextInputs.wait (n - 1) r) := by
  rw [step_of_running hrst hs, runEdge_busy (s := s.nextInputs) hc, if_neg (Nat.not_le_of_lt hn)]

/-- A command in progress presents its response after as many edges as its latency, one if that is 0 (log 2). -/
theorem run_busy {s : State} {n : Nat} {r : Response} (hc : s.ctrl = .busy n r) (hs : s.wasReset = true)
    (hrst : NoReset (max 1 n) s) : ∃ u, core.run (max 1 n) s = .next u ∧ u.rspPort = some r := by
  induction n generalizing s with
  | zero => exact ⟨_, run_succ 0 (step_busy_present hc hs hrst.pins (Nat.zero_le 1)), present_rspPort r _⟩
  | succ n ih =>
    rcases Nat.eq_zero_or_pos n with rfl | hn
    · exact ⟨_, run_succ 0 (step_busy_present hc hs hrst.pins (Nat.le_refl 1)), present_rspPort r _⟩
    · have hmax : max 1 (n + 1) = max 1 n + 1 := by omega
      rw [hmax] at hrst ⊢
      have hstep : step s = .next (s.nextInputs.wait n r) := step_busy_wait hc hs hrst.pins (Nat.succ_lt_succ hn)
      obtain ⟨u, hrun, hport⟩ := ih (s := s.nextInputs.wait n r) rfl hs (hrst.tail rfl)
      exact ⟨u, (run_succ _ hstep).trans hrun, hport⟩

/-- Settles O51: the accepting edge leaves the command in progress for its word's latency; `run_busy` gives the rest. -/
theorem everyCommandPresentsItsResponse : Obligations.EveryCommandPresentsItsResponse := by
  intro s hs haccepts hrst
  obtain ⟨t, r, haccept, hbusy⟩ := accept_ctrl s.pins.cmdWord s.pins.cmdOpd s.nextInputs
  have hend := acceptEnd_of_accept haccept
  have hlatency : latencyOf s.pins.cmdWord s.nextInputs = latencyOf s.pins.cmdWord s :=
    SameLatencies.latencyOf ⟨rfl, rfl, rfl⟩ _
  rw [hlatency] at hbusy
  rw [Nat.add_comm] at hrst ⊢
  obtain ⟨u, hrun, hport⟩ := run_busy hbusy (hend.keeps_parameters.2.trans hs) (NoReset.tail hrst hend.inputs)
  refine ⟨t, r, u, haccept, by rw [State.held, hbusy], ?_, hport⟩
  rw [run_succ _ ((step_of_accepts hs haccepts).trans haccept), hrun]

end Sys2Proof.Machine
end

section
/-!
PROOFS. The assembler: what `buildLine` makes is well-formed (O41), and it reads back the text that `lineText` writes (rule R70;
O42): the digits of a number, the fields of an operand list, and the line as a whole.
-/

namespace Sys2Proof.Machine

/-! ### What is assembled has an encoding (rule R70) -/

/-- An assembled line is one that `buildLine` makes of a mnemonic and its operands. -/
theorem buildLine_of_assembleLine {text : List Char} {l : HostLine} (h : assembleLine text = .line l) :
    ∃ mnemonic operands, buildLine mnemonic operands = some l := by
  unfold assembleLine at h
  dsimp only at h
  split at h
  · cases h
  split at h
  · cases h
  split at h
  · cases h
  · next hl =>
    cases h
    exact ⟨_, _, hl⟩

theorem buildLine_seedBytes (operands : List Nat) :
    buildLine "SEED_BYTES".toList operands =
      if operands.length == seedBytesLen && operands.all fitsByte then
        some (.command (.seedBytes (operands.map (BitVec.ofNat 8))))
      else none := by
  unfold buildLine
  rw [if_neg (by decide), if_pos rfl]

/-- `buildLine` makes a byte seed only of 32 operands. -/
theorem length_of_buildLine_seedBytes {mnemonic : List Char} {operands : List Nat} {bytes : List Byte}
    (h : buildLine mnemonic operands = some (.command (.seedBytes bytes))) : bytes.length = seedBytesLen := by
  by_cases hm : mnemonic = "SEED_BYTES".toList
  · rw [hm, buildLine_seedBytes, Option.ite_none_right_eq_some, Bool.and_eq_true, beq_iff_eq] at h
    obtain ⟨⟨hlen, -⟩, hline⟩ := h
    cases hline
    rw [List.length_map, hlen]
  · unfold buildLine at h
    rw [if_neg hm] at h
    split_ifs at h <;> split at h <;> simp at h

theorem wellFormed_of_buildLine {mnemonic : List Char} {operands : List Nat} {i : Instr}
    (h : buildLine mnemonic operands = some (.command i)) : i.wellFormed = true := by
  cases i with
  | seedBytes bytes => exact beq_iff_eq.2 (length_of_buildLine_seedBytes h)
  | _ => rfl

/-- Settles O41, by the check of the operand count in `buildLine`. -/
theorem assembledCommandsAreWellFormed : Obligations.AssembledCommandsAreWellFormed := by
  intro text i h
  obtain ⟨_, _, hbuild⟩ := buildLine_of_assembleLine h
  exact wellFormed_of_buildLine hbuild

/-! ### Numbers -/

theorem digitValue_hexChar {n : Nat} (h : n < 16) : digitValue (hexChar n) = n := by
  revert n
  decide

/-- The last `n` hexadecimal digits of `x`, most significant first. -/
def hexText : Nat → Nat → List Char
  | 0, _ => []
  | n + 1, x => hexChar (x / 16 ^ n % 16) :: hexText n x

theorem readDigits_hexText (n x value : Nat) :
    readDigits 16 (hexText n x) value = some (value * 16 ^ n + x % 16 ^ n) := by
  induction n generalizing value with
  | zero => simp [hexText, readDigits, Nat.mod_one]
  | succ n ih =>
    rw [hexText, readDigits, digitValue_hexChar (Nat.mod_lt _ (by decide)), if_pos (Nat.mod_lt _ (by decide)), ih]
    rw [Nat.mod_pow_succ, Nat.pow_succ]
    congr 1
    ring

theorem readNumber_hexText {n x : Nat} (hx : x < 16 ^ (n + 1)) :
    readNumber ('0' :: 'x' :: hexText (n + 1) x) = some x := by
  have h : readNumber ('0' :: 'x' :: hexText (n + 1) x) = readDigits 16 (hexText (n + 1) x) 0 := rfl
  rw [h, readDigits_hexText, Nat.zero_mul, Nat.zero_add, Nat.mod_eq_of_lt hx]

theorem wordText_eq_hexText (w : Word) : wordText w = '0' :: 'x' :: hexText 16 w.toNat := by
  simp [wordText, hexText, List.range_succ, Nat.shiftRight_eq_div_pow]

theorem byteText_eq_hexText (b : Byte) : byteText b = '0' :: 'x' :: hexText 2 b.toNat := by
  simp [byteText, hexText, Nat.shiftRight_eq_div_pow]

/-! ### Fields -/

/-- A character of a mnemonic or of a number: no white space, no comma and no start of a comment. -/
def isPlain (c : Char) : Bool := !isSpace c && c != ',' && c != ';'

/-- A text that a line can hold as its mnemonic or as one of its operands. -/
def IsFieldText (f : List Char) : Prop := f ≠ [] ∧ ∀ c ∈ f, isPlain c = true

theorem isFieldText_of_all {f : List Char} (hne : f ≠ []) (hf : f.all isPlain = true) : IsFieldText f :=
  ⟨hne, List.all_eq_true.1 hf⟩

theorem isPlain_iff (c : Char) : isPlain c = true ↔ isSpace c = false ∧ c ≠ ',' ∧ c ≠ ';' := by
  simp [isPlain, and_assoc]

theorem isPlain_hexChar {n : Nat} (h : n < 16) : isPlain (hexChar n) = true := by
  revert n
  decide

theorem isPlain_of_mem_hexText {n x : Nat} {c : Char} (h : c ∈ hexText n x) : isPlain c = true := by
  induction n with
  | zero => cases h
  | succ n ih =>
    rcases List.mem_cons.1 h with rfl | h
    · exact isPlain_hexChar (Nat.mod_lt _ (by decide))
    · exact ih h

theorem isFieldText_hexText (n x : Nat) : IsFieldText ('0' :: 'x' :: hexText n x) := by
  refine ⟨List.cons_ne_nil _ _, fun c hc => ?_⟩
  rcases List.mem_cons.1 hc with rfl | hc
  · decide
  rcases List.mem_cons.1 hc with rfl | hc
  · decide
  · exact isPlain_of_mem_hexText hc

theorem splitFields_ne_nil (cs : List Char) : splitFields cs ≠ [] := by
  cases cs with
  | nil => simp [splitFields]
  | cons c cs =>
    rw [splitFields]
    split
    · simp
    · split <;> simp

/-- A character that is no comma belongs to the first field. -/
theorem splitFields_cons {c : Char} (hc : c ≠ ',') {cs f : List Char} {fs : List (List Char)}
    (h : splitFields cs = f :: fs) : splitFields (c :: cs) = (c :: f) :: fs := by
  simp [splitFields, h, hc]

/-- A comma starts a new field. -/
theorem splitFields_comma (cs : List Char) : splitFields (',' :: cs) = [] :: splitFields cs := by
  obtain ⟨f, fs, h⟩ := List.exists_cons_of_ne_nil (splitFields_ne_nil cs)
  simp [splitFields, h]

theorem splitFields_append_comma {f : List Char} (hf : ∀ c ∈ f, c ≠ ',') (cs : List Char) :
    splitFields (f ++ ',' :: cs) = f :: splitFields cs := by
  induction f with
  | nil => exact splitFields_comma cs
  | cons c f ih =>
    obtain ⟨hc, hf⟩ := List.forall_mem_cons.1 hf
    exact splitFields_cons hc (ih hf)

theorem splitFields_of_no_comma {f : List Char} (hf : ∀ c ∈ f, c ≠ ',') : splitFields f = [f] := by
  induction f with
  | nil => rfl
  | cons c f ih =>
    obtain ⟨hc, hf⟩ := List.forall_mem_cons.1 hf
    exact splitFields_cons hc (ih hf)

/-- Fields without commas come back from their joined text. -/
theorem splitFields_joinFields {f : List Char} {fs : List (List Char)} (h : ∀ g ∈ f :: fs, ∀ c ∈ g, c ≠ ',') :
    splitFields (joinFields (f :: fs)) = f :: fs := by
  induction fs generalizing f with
  | nil => exact splitFields_of_no_comma (h f List.mem_cons_self)
  | cons g fs ih =>
    obtain ⟨hf, hfs⟩ := List.forall_mem_cons.1 h
    rw [joinFields, splitFields_append_comma hf, ih hfs]

/-- A joined text holds the characters of its fields and commas. -/
theorem mem_joinFields {c : Char} {fs : List (List Char)} (h : c ∈ joinFields fs) : c = ',' ∨ ∃ f ∈ fs, c ∈ f := by
  induction fs with
  | nil => cases h
  | cons f fs ih =>
    cases fs with
    | nil => exact .inr ⟨f, List.mem_cons_self, h⟩
    | cons g fs =>
      rw [joinFields, List.mem_append, List.mem_cons] at h
      rcases h with h | rfl | h
      · exact .inr ⟨f, List.mem_cons_self, h⟩
      · exact .inl rfl
      · exact (ih h).imp_right fun ⟨g', hg', hc⟩ => ⟨g', List.mem_cons_of_mem _ hg', hc⟩

/-! ### White space at the ends -/

theorem trimLine_eq_rdropWhile (cs : List Char) : trimLine cs = (cs.dropWhile isSpace).rdropWhile isSpace := by rfl

/-- A text that neither starts nor ends with white space stays as it is. -/
theorem trimLine_eq_self {cs : List Char} (hne : cs ≠ []) (hfirst : isSpace (cs.head hne) = false)
    (hlast : isSpace (cs.getLast hne) = false) : trimLine cs = cs := by
  have hdrop : cs.dropWhile isSpace = cs := by
    rw [List.dropWhile_eq_self_iff]
    simpa [List.head_eq_getElem] using fun _ => hfirst
  rw [trimLine_eq_rdropWhile, hdrop, List.rdropWhile_eq_self_iff]
  simp [hlast]

theorem trimLine_of_no_space {cs : List Char} (h : ∀ c ∈ cs, isSpace c = false) : trimLine cs = cs := by
  by_cases hne : cs = []
  · rw [hne]
    rfl
  · exact trimLine_eq_self hne (h _ (List.head_mem hne)) (h _ (List.getLast_mem hne))

theorem trimLine_space_cons (cs : List Char) : trimLine (' ' :: cs) = trimLine cs := by rfl

/-! ### Lines -/

theorem IsFieldText.no_space {f : List Char} (h : IsFieldText f) : ∀ c ∈ f, isSpace c = false :=
  fun c hc => ((isPlain_iff c).1 (h.2 c hc)).1

theorem IsFieldText.no_comma {f : List Char} (h : IsFieldText f) : ∀ c ∈ f, c ≠ ',' :=
  fun c hc => ((isPlain_iff c).1 (h.2 c hc)).2.1

theorem IsFieldText.no_semicolon {f : List Char} (h : IsFieldText f) : ∀ c ∈ f, c ≠ ';' :=
  fun c hc => ((isPlain_iff c).1 (h.2 c hc)).2.2

section

variable {f m : List Char} {fs : List (List Char)} (hfs : ∀ g ∈ f :: fs, IsFieldText g) (hm : IsFieldText m)
include hfs

theorem joinFields_no_space : ∀ c ∈ joinFields (f :: fs), isSpace c = false := by
  intro c hc
  rcases mem_joinFields hc with rfl | ⟨g, hg, hc⟩
  · rfl
  · exact (hfs g hg).no_space c hc

theorem joinFields_no_semicolon : ∀ c ∈ joinFields (f :: fs), c ≠ ';' := by
  intro c hc
  rcases mem_joinFields hc with rfl | ⟨g, hg, hc⟩
  · decide
  · exact (hfs g hg).no_semicolon c hc

theorem joinFields_ne_nil : joinFields (f :: fs) ≠ [] := by
  have hf : f ≠ [] := (hfs f List.mem_cons_self).1
  cases fs <;> simp [joinFields, hf]

/-- The fields of an operand text come back, also after the white space that follows the mnemonic. -/
theorem operandFields_joinFields : operandFields (' ' :: joinFields (f :: fs)) = f :: fs := by
  have htext : trimLine (' ' :: joinFields (f :: fs)) = joinFields (f :: fs) :=
    trimLine_of_no_space (joinFields_no_space hfs)
  have hsplit : splitFields (' ' :: joinFields (f :: fs)) = (' ' :: f) :: fs :=
    splitFields_cons (by decide) (splitFields_joinFields fun g hg => (hfs g hg).no_comma)
  have htrim : ∀ g ∈ f :: fs, trimLine g = g := fun g hg => trimLine_of_no_space (hfs g hg).no_space
  rw [operandFields, htext, if_neg (by simpa using joinFields_ne_nil hfs), hsplit, List.map_cons, trimLine_space_cons,
    ← List.map_cons, List.map_congr_left htrim, List.map_id']

include hm

theorem stripComment_line :
    stripComment (m ++ ' ' :: joinFields (f :: fs)) = m ++ ' ' :: joinFields (f :: fs) := by
  rw [stripComment, List.takeWhile_eq_self_iff]
  intro c hc
  rw [List.mem_append, List.mem_cons] at hc
  rcases hc with hc | rfl | hc
  · simpa using hm.no_semicolon c hc
  · decide
  · simpa using joinFields_no_semicolon hfs c hc

theorem trimLine_line : trimLine (m ++ ' ' :: joinFields (f :: fs)) = m ++ ' ' :: joinFields (f :: fs) := by
  refine trimLine_eq_self (by simp) ?_ ?_
  · rw [List.head_append_of_ne_nil hm.1]
    exact hm.no_space _ (List.head_mem hm.1)
  · rw [List.getLast_append_of_ne_nil _ (List.cons_ne_nil _ _), List.getLast_cons (joinFields_ne_nil hfs)]
    exact joinFields_no_space hfs _ (List.getLast_mem _)

/-- A mnemonic, a space and the operands, separated by commas, are assembled from the numbers the operands write. -/
theorem assembleLine_of_fields {operands : List Nat} {l : HostLine} (hread : readNumbers (f :: fs) = some operands)
    (hbuild : buildLine m operands = some l) : assembleLine (m ++ ' ' :: joinFields (f :: fs)) = .line l := by
  have hword : ∀ c ∈ m, (!isSpace c) = true := fun c hc => by rw [hm.no_space c hc]; rfl
  have hmnemonic : mnemonicText (m ++ ' ' :: joinFields (f :: fs)) = m := by
    rw [mnemonicText, List.takeWhile_append_of_pos hword, List.takeWhile_cons_of_neg (by decide), List.append_nil]
  have hrest : (m ++ ' ' :: joinFields (f :: fs)).dropWhile (fun c => !isSpace c) = ' ' :: joinFields (f :: fs) := by
    rw [List.dropWhile_append_of_pos hword, List.dropWhile_cons_of_neg (by decide)]
  simp only [assembleLine, stripComment_line hfs hm, trimLine_line hfs hm, hmnemonic, hrest,
    operandFields_joinFields hfs, hread, hbuild]
  simp

end

/-! ### The text of a command -/

theorem isFieldText_wordText (w : Word) : IsFieldText (wordText w) :=
  wordText_eq_hexText w ▸ isFieldText_hexText 16 w.toNat

theorem isFieldText_byteText (b : Byte) : IsFieldText (byteText b) :=
  byteText_eq_hexText b ▸ isFieldText_hexText 2 b.toNat

theorem readNumber_wordText (w : Word) : readNumber (wordText w) = some w.toNat := by
  rw [wordText_eq_hexText]
  exact readNumber_hexText w.isLt

theorem readNumber_byteText (b : Byte) : readNumber (byteText b) = some b.toNat := by
  rw [byteText_eq_hexText]
  exact readNumber_hexText b.isLt

theorem readNumbers_cons {f : List Char} {fs : List (List Char)} {n : Nat} {ns : List Nat}
    (hf : readNumber f = some n) (hfs : readNumbers fs = some ns) : readNumbers (f :: fs) = some (n :: ns) := by
  rw [readNumbers, hf, hfs]

theorem readNumbers_byteText (bytes : List Byte) :
    readNumbers (bytes.map byteText) = some (bytes.map BitVec.toNat) := by
  induction bytes with
  | nil => rfl
  | cons b bs ih => exact readNumbers_cons (readNumber_byteText b) ih

theorem readNumbers_wordText (words : List Word) :
    readNumbers (words.map wordText) = some (words.map BitVec.toNat) := by
  induction words with
  | nil => rfl
  | cons w ws ih => exact readNumbers_cons (readNumber_wordText w) ih

theorem fitsWord_toNat (w : Word) : fitsWord w.toNat = true := decide_eq_true w.isLt

theorem fitsByte_toNat (b : Byte) : fitsByte b.toNat = true := decide_eq_true b.isLt

theorem buildLine_seedU64 (seed : Word) :
    buildLine "SEED_U64".toList [seed.toNat] = some (.command (.seedU64 seed)) := by
  simp [buildLine, fitsWord_toNat]

theorem buildLine_seedStream (seed k n : Word) :
    buildLine "SEED_STREAM".toList [seed.toNat, k.toNat, n.toNat] = some (.command (.seedStream seed k n)) := by
  simp [buildLine, fitsWord_toNat]

theorem buildLine_seedBytes_toNat {bytes : List Byte} (h : bytes.length = seedBytesLen) :
    buildLine "SEED_BYTES".toList (bytes.map BitVec.toNat) = some (.command (.seedBytes bytes)) := by
  rw [buildLine_seedBytes]
  simp [h, fitsByte_toNat, Function.comp_def]

theorem assembleLine_seedU64 (seed : Word) :
    assembleLine (lineText (.seedU64 seed)) = .line (.command (.seedU64 seed)) :=
  assembleLine_of_fields (by simpa using isFieldText_wordText seed) (isFieldText_of_all (by decide) (by decide))
    (readNumbers_wordText [seed]) (buildLine_seedU64 seed)

theorem assembleLine_seedBytes {bytes : List Byte} (h : bytes.length = seedBytesLen) :
    assembleLine (lineText (.seedBytes bytes)) = .line (.command (.seedBytes bytes)) := by
  obtain ⟨b, bs, rfl⟩ := List.exists_cons_of_length_eq_add_one (n := 31) h
  refine assembleLine_of_fields ?_ (isFieldText_of_all (by decide) (by decide)) (readNumbers_byteText (b :: bs))
    (buildLine_seedBytes_toNat h)
  intro f hf
  obtain ⟨c, -, rfl⟩ := List.mem_map.1 (show f ∈ (b :: bs).map byteText from hf)
  exact isFieldText_byteText c

theorem assembleLine_seedStream (seed k n : Word) :
    assembleLine (lineText (.seedStream seed k n)) = .line (.command (.seedStream seed k n)) :=
  assembleLine_of_fields (by simp [isFieldText_wordText]) (isFieldText_of_all (by decide) (by decide))
    (readNumbers_wordText [seed, k, n]) (buildLine_seedStream seed k n)

/-- Settles O42: the commands with operands by `assembleLine_of_fields`, the other two by running the assembler. -/
theorem assemblerReadsTheTextOfACommand : Obligations.AssemblerReadsTheTextOfACommand := by
  intro i hi
  cases i with
  | seedU64 seed => exact assembleLine_seedU64 seed
  | seedBytes bytes => exact assembleLine_seedBytes (beq_iff_eq.1 hi)
  | seedStream seed k n => exact assembleLine_seedStream seed k n
  | nextU64 => decide
  | nextU32 => decide

end Sys2Proof.Machine
end

section
/-!
PROOFS. The formula of one draw, the output function as a bijection, and the words of 2^64 consecutive draws (rules R81 to
R83): O2, O3 and O4.
-/

namespace Sys2Proof.Machine

/-- The output function of this hardware, with its shifts and multipliers written out (rule R81). -/
theorem expanderFin_config (z : Word) :
    expanderFin config z =
      xorShiftRight (xorShiftRight (xorShiftRight z 30 * 0xbf58476d1ce4e5b9) 27 * 0x94d049bb133111eb) 31 := by
  rw [expanderFin, config_smS1, config_smM1, config_smS2, config_smM2, config_smS3]

/-- Settles O2: the accumulator by `smNext_snd`, the word by `smNext_fst` and `expanderFin_config`. -/
theorem expanderDrawFollowsItsFormula : Obligations.ExpanderDrawFollowsItsFormula := by
  intro acc
  apply Prod.ext
  · simp only [smNext_fst, config_smGamma, expanderFin_config, xorShiftRight]
  · rw [smNext_snd, config_smGamma]

/-! ### The output function is a bijection that fixes 0 -/

theorem expanderFin_bijective : Function.Bijective (expanderFin config) :=
  expanderFin_injective.bijective_of_finite

theorem expanderFin_zero (c : Config) : expanderFin c 0 = 0 := by
  simp [expanderFin, xorShiftRight]

theorem expanderFin_eq_zero_iff (z : Word) : expanderFin config z = 0 ↔ z = 0 :=
  expanderFin_injective.eq_iff' (expanderFin_zero config)

/-- A draw returns 0 exactly from the accumulator `2^64 - SM_GAMMA` (rule R83). -/
theorem smNext_fst_eq_zero_iff (acc : Word) : (smNext config acc).1 = 0 ↔ acc = 0x61c8864680b583eb := by
  have hneg : -config.smGamma = 0x61c8864680b583eb := by
    rw [config_smGamma]
    decide
  rw [smNext_fst, expanderFin_eq_zero_iff, add_eq_zero_iff_eq_neg, hneg]

/-- Settles O3: an injection of the finite set of words is a bijection, and 0 is its own image. -/
theorem expanderOutputIsABijection : Obligations.ExpanderOutputIsABijection :=
  ⟨expanderFin_bijective, expanderFin_eq_zero_iff, smNext_fst_eq_zero_iff⟩

/-! ### The accumulator after `n` draws -/

theorem accAfter_succ (c : Config) (n : Nat) (acc : Word) :
    accAfter c (n + 1) acc = accAfter c n (acc + c.smGamma) := by rfl

/-- `n` draws add `n * SM_GAMMA` to the accumulator. -/
theorem accAfter_eq (c : Config) (n : Nat) (acc : Word) :
    accAfter c n acc = acc + BitVec.ofNat 64 n * c.smGamma := by
  induction n generalizing acc with
  | zero => simp [accAfter]
  | succ n ih => rw [accAfter_succ, ih, BitVec.ofNat_add, add_mul, BitVec.one_mul, add_assoc, add_comm c.smGamma]

/-- `SM_GAMMA` is odd, so it has an inverse modulo 2^64. -/
theorem isUnit_smGamma : IsUnit config.smGamma :=
  IsUnit.of_mul_eq_one 0xf1de83e19937733d (by rw [config_smGamma]; decide)

/-- The accumulator runs through 2^64 different values (rule R83). -/
theorem accAfter_inj {i j : Nat} (hi : i < 2 ^ 64) (hj : j < 2 ^ 64) {acc : Word}
    (h : accAfter config i acc = accAfter config j acc) : i = j := by
  rw [accAfter_eq, accAfter_eq] at h
  have hword : BitVec.ofNat 64 i = BitVec.ofNat 64 j := isUnit_smGamma.mul_left_injective (add_left_cancel h)
  have hmod : i % 2 ^ 64 = j % 2 ^ 64 := by
    rw [← BitVec.toNat_ofNat, hword, BitVec.toNat_ofNat]
  rwa [Nat.mod_eq_of_lt hi, Nat.mod_eq_of_lt hj] at hmod

/-- Two draws return the same word only from the same accumulator (rule R82). -/
theorem smNext_fst_injective : Function.Injective fun acc => (smNext config acc).1 :=
  expanderFin_injective.comp (add_left_injective config.smGamma)

/-- Settles O4: equal words are drawn from equal accumulators, and those of 2^64 consecutive draws differ. -/
theorem expanderWordsDoNotRepeat : Obligations.ExpanderWordsDoNotRepeat := fun _ _ _ hi hj h =>
  accAfter_inj hi hj (smNext_fst_injective h)

end Sys2Proof.Machine
end

section
/-!
PROOFS. `draw_state` draws three words, and its loop ends with the first pass (rules R90, R92, R106): O5.
-/

namespace Sys2Proof.Machine

/-- A pass is discarded exactly when its three draws, in the order they are made, are zero (rule R90). -/
theorem allZero_drawPass_iff (acc : Word) :
    allZero (drawPass config acc).gen = true ↔
      (smNext config acc).1 = 0 ∧ (smNext config (smNext config acc).2).1 = 0 ∧
        (smNext config (smNext config (smNext config acc).2).2).1 = 0 := by
  rw [allZero_iff, drawPass_config, Generator.mk.injEq, and_comm, and_assoc]

/-- Every loop of `draw_state` ends with its first pass, whatever its bound (rule R92). -/
theorem drawLoop_eq_drawPass (n : Nat) (acc : Word) : drawLoop config n acc = drawPass config acc := by
  cases n with
  | zero => exact drawLoop_zero config acc
  | succ n => rw [drawLoop_succ, drawPass_not_allZero, if_neg Bool.false_ne_true]

/-- Three draws leave the accumulator `3 * SM_GAMMA` on (rule R106). -/
theorem smNext_three_snd (acc : Word) :
    (smNext config (smNext config (smNext config acc).2).2).2 = acc + 0xdaa66d2c7ddf743f := by
  have hgamma : config.smGamma + (config.smGamma + config.smGamma) = 0xdaa66d2c7ddf743f := by
    rw [config_smGamma]
    decide
  rw [smNext_snd, smNext_snd, smNext_snd, add_assoc, add_assoc, hgamma]

/-- Settles O5: the pass by `drawPass_config`, the bound by `drawLoop_eq_drawPass`; two successive draws differ, so not both
are zero. -/
theorem drawStateIsThreeDrawsInOrder : Obligations.DrawStateIsThreeDrawsInOrder := by
  refine ⟨fun n acc => ?pass, fun n seed => ?bound, fun seed => ⟨?draws, ?mixing⟩⟩
  case pass =>
    rw [drawLoop_succ, if_congr (allZero_drawPass_iff acc) rfl rfl, drawPass_config]
  case bound => rw [drawLoop_eq_drawPass, drawState_eq_drawPass]
  case draws => rw [drawState_eq_drawPass, drawPass_config, smNext_three_snd]
  case mixing =>
    rintro ⟨hmix, hloop⟩
    exact smNext_fst_ne_next seed (hmix.trans hloop.symm)

end Sys2Proof.Machine
end

section
/-!
PROOFS. The warm-up as an iterate (rule R93), and the offsets of a family of streams (rules R98, R101): O11, O12 and O13.
-/

namespace Sys2Proof.Machine

/-- Settles O11: 16 steps are the iterate of one. -/
theorem warmupIsSixteenSteps : Obligations.WarmupIsSixteenSteps := by
  intro g
  rw [warmup, config_warmupSteps, advance_eq_iterate]

/-- This hardware's reading of `CPS(N)` (rule R98; C1). -/
theorem cyclesPerStream_config (n : Nat) : cyclesPerStream config n = (2 ^ 64 - 1) / n := by
  rw [cyclesPerStream, config_cpsFormula]

theorem cyclesPerStream_pos {n : Word} (hn : 1 ≤ n.toNat) : 1 ≤ cyclesPerStream config n.toNat := by
  rw [cyclesPerStream_config]
  exact Nat.div_pos (Nat.le_sub_one_of_lt n.isLt) hn

theorem cyclesPerStream_le (n : Nat) : cyclesPerStream config n ≤ 2 ^ 64 - 1 := by
  rw [cyclesPerStream_config]
  exact Nat.div_le_self _ n

/-- The first `N` multiples of `CPS(N)` need no reduction (rule R101). -/
theorem mul_cyclesPerStream_le {k n : Nat} (h : k ≤ n) : k * cyclesPerStream config n ≤ 2 ^ 64 - 1 := by
  rw [cyclesPerStream_config]
  calc k * ((2 ^ 64 - 1) / n) ≤ n * ((2 ^ 64 - 1) / n) := Nat.mul_le_mul_right _ h
    _ ≤ 2 ^ 64 - 1 := Nat.mul_div_le _ n

/-- The offset with the value of `STREAM_MUL` written out (rule R98). -/
theorem streamOffset_config (i n : Word) :
    streamOffset config i n =
      BitVec.ofNat 64 (i.toNat * cyclesPerStream config n.toNat * 0x9999999999999999) := by
  rw [streamOffset, config_streamMul]
  rfl

/-- Settles O12: each bound and the formula by its lemma. -/
theorem streamOffsetFollowsItsFormula : Obligations.StreamOffsetFollowsItsFormula := by
  intro i n hn _
  exact ⟨cyclesPerStream_config _, cyclesPerStream_pos hn, cyclesPerStream_le _,
    by rw [streamOffset_config, BitVec.toNat_ofNat, cyclesPerStream_config]⟩

/-- `STREAM_MUL` is odd, so it can be cancelled modulo 2^64. -/
theorem streamMul_coprime : Nat.Coprime (2 ^ 64) 0x9999999999999999 := by
  norm_num

/-- Equal offsets come from the same index, as the multiples of `CPS(N)` below `N` differ (rule R101). -/
theorem streamOffset_inj {i j n : Word} (hi : i.toNat < n.toNat) (hj : j.toNat < n.toNat)
    (h : streamOffset config i n = streamOffset config j n) : i = j := by
  have hmod : i.toNat * cyclesPerStream config n.toNat * 0x9999999999999999 ≡
      j.toNat * cyclesPerStream config n.toNat * 0x9999999999999999 [MOD 2 ^ 64] := by
    have hnat := congrArg BitVec.toNat h
    rwa [streamOffset_config, streamOffset_config, BitVec.toNat_ofNat, BitVec.toNat_ofNat] at hnat
  have hmul : i.toNat * cyclesPerStream config n.toNat = j.toNat * cyclesPerStream config n.toNat :=
    (Nat.ModEq.cancel_right_of_coprime streamMul_coprime hmod).eq_of_lt_of_lt
      (Nat.lt_of_le_pred (by decide) (mul_cyclesPerStream_le hi.le))
      (Nat.lt_of_le_pred (by decide) (mul_cyclesPerStream_le hj.le))
  exact BitVec.eq_of_toNat_eq (Nat.eq_of_mul_eq_mul_right (cyclesPerStream_pos (Nat.one_le_of_lt hi)) hmul)

/-- Settles O13: the bound, the steps by `advance_fastLoop`, and `streamOffset_inj`. -/
theorem streamOffsetsAreEvenlySpacedAndDistinct : Obligations.StreamOffsetsAreEvenlySpacedAndDistinct := by
  intro i j n hi hj
  exact ⟨mul_cyclesPerStream_le hi.le, fun g => by rw [advance_fastLoop, streamOffset_config],
    streamOffset_inj hi hj⟩

end Sys2Proof.Machine
end

section
/-!
PROOFS. What the construction commands leave (rules R94 to R104): O14 to O17, O19, O20, O21 and O24.
-/

namespace Sys2Proof.Machine

/-! ### One construction -/

/-- With `FAULT = 1` a construction command only answers Faulted (rule R134). -/
theorem exec_construction_of_fault {i : Instr} {s : State} (hi : isConstruction i = true) (hf : s.fault = true) :
    exec i s = .next { s with ctrl := .busy s.latSeed { status := 5, data := 0 } } := by
  rw [exec_eq_unlessFaulted, unlessFaulted_of_fault hf, instrLatency, if_pos hi, respond_eq, config_noWordData, statusBits]

theorem constructFromSeed_eq (seed : Word) (s : State) :
    constructFromSeed seed s = { s with
      gen := warmup config (drawState config seed).gen
      smAcc := (drawState config seed).smAcc
      seeded := true
      ctrl := .busy s.latSeed { status := 0, data := 0 } } := by
  rw [constructFromSeed, finishConstruction_eq]

theorem constructStream_eq (seed k n : Word) (s : State) :
    constructStream seed k n s = { s with
      gen := warmup config
        { fastLoop := (drawState config seed).gen.fastLoop + streamOffset config k n
          mix := (drawState config seed).gen.mix
          loopMix := (drawState config seed).gen.loopMix }
      smAcc := (drawState config seed).smAcc
      seeded := true
      ctrl := .busy s.latSeed { status := 0, data := 0 } } := by
  rw [constructStream, placeStream_config, offsetFastLoop, finishConstruction_eq]

/-! ### The checks of SEED_STREAM (rule R100) -/

theorem constructCheckedStream_of_zero (seed k : Word) (s : State) :
    constructCheckedStream seed k 0 s = raiseFault s.latSeed .invalidStreamCount s := by
  rw [constructCheckedStream, if_pos rfl]

theorem constructCheckedStream_of_le {k n : Word} (hn : n ≠ 0) (h : n.toNat ≤ k.toNat) (seed : Word) (s : State) :
    constructCheckedStream seed k n s = raiseFault s.latSeed .invalidStreamIndex s := by
  rw [constructCheckedStream, if_neg hn, if_pos h]

theorem ne_zero_of_toNat_pos {n : Word} (h : 0 < n.toNat) : n ≠ 0 := by
  rintro rfl
  exact absurd h (by decide)

theorem constructCheckedStream_of_lt {k n : Word} (h : k.toNat < n.toNat) (seed : Word) (s : State) :
    constructCheckedStream seed k n s = constructStream seed k n s := by
  rw [constructCheckedStream, if_neg (ne_zero_of_toNat_pos (Nat.zero_lt_of_lt h)), if_neg (Nat.not_le_of_lt h)]

/-! ### The commands one by one (rules R95 to R100) -/

/-- Settles O14: `constructFromSeed_eq`, once `FAULT` is checked. -/
theorem seedU64Constructs : Obligations.SeedU64Constructs := by
  intro seed s
  refine ⟨fun hs => ?_, fun hf => exec_construction_of_fault rfl hf⟩
  rw [exec_of_noFault hs, execBody, constructFromSeed_eq]

theorem leValue_eq_foldr (bytes : List Byte) :
    leValue bytes = bytes.foldr (fun (b : Byte) (v : Nat) => b.toNat + 256 * v) 0 := by
  induction bytes with
  | nil => rfl
  | cons b bs ih => rw [leValue, List.foldr_cons, ih]

/-- The first eight bytes carry the little-endian value of all bytes modulo 2^64 (rule R96). -/
theorem fromLE8_eq_mod (bytes : List Byte) : fromLE8 bytes = BitVec.ofNat 64 (leValue bytes % 2 ^ 64) := by
  apply BitVec.eq_of_getLsbD_eq
  intro i hi
  rw [fromLE8_getLsbD bytes hi, BitVec.getLsbD_ofNat, Nat.testBit_mod_two_pow, leValue_testBit]
  simp [hi]

/-- Settles O15: SEED_BYTES constructs from `fromLE8`, which is the value the statement writes. -/
theorem seedBytesConstructs : Obligations.SeedBytesConstructs := by
  intro bytes s _
  refine ⟨fun hs => ?_, fun hf => exec_construction_of_fault rfl hf⟩
  rw [exec_of_noFault hs, execBody, constructFromSeed_eq, fromLE8_eq_mod, leValue_eq_foldr]

/-- Settles O16: with a legal index the checks pass. -/
theorem seedStreamConstructs : Obligations.SeedStreamConstructs := by
  intro seed k n s hs hk
  rw [exec_of_noFault hs, execBody, constructCheckedStream_of_lt hk, constructStream_eq]

/-- Settles O17: the two checks in their order, and the check of `FAULT` before them. -/
theorem seedStreamChecksItsPreconditions : Obligations.SeedStreamChecksItsPreconditions := by
  intro seed k n s
  refine ⟨fun hs hn => ?count, fun hs hn hk => ?index, fun hf => exec_construction_of_fault rfl hf⟩
  case count =>
    rw [exec_of_noFault hs, execBody, hn, constructCheckedStream_of_zero, raiseFault_eq, statusBits]
  case index =>
    rw [exec_of_noFault hs, execBody, constructCheckedStream_of_le (ne_zero_of_toNat_pos hn) hk, raiseFault_eq, statusBits]

/-! ### Equal commands (rules R97, R103) -/

/-- Settles O19: both words run SEED_U64 on the low 64 bits of the bus. -/
theorem seedBytesActsAsSeedU64 : Obligations.SeedBytesActsAsSeedU64 := by
  intro opd s
  rw [accept_seedBytes, accept_seedU64]

theorem streamOffset_zero_index (n : Word) : streamOffset config 0 n = 0 := by
  simp [streamOffset]

/-- Stream 0 of a family is constructed as the single stream (rule R103). -/
theorem constructCheckedStream_zero_index {n : Word} (hn : n ≠ 0) (seed : Word) (s : State) :
    constructCheckedStream seed 0 n s = constructFromSeed seed s := by
  have hpos : (0 : Word).toNat < n.toNat := Nat.pos_of_ne_zero fun h => hn (BitVec.eq_of_toNat_eq h)
  rw [constructCheckedStream_of_lt hpos, constructStream, streamOffset_zero_index, placeStream_config,
    offsetFastLoop_zero, constructFromSeed]

/-- Settles O20: with `FAULT = 1` both answer Faulted, otherwise both construct the same. -/
theorem streamZeroIsTheSingleStream : Obligations.StreamZeroIsTheSingleStream := by
  intro seed n s hn
  cases hf : s.fault with
  | true => rw [exec_construction_of_fault rfl hf, exec_construction_of_fault rfl hf]
  | false => rw [exec_of_noFault hf, exec_of_noFault hf, execBody, execBody, constructCheckedStream_zero_index hn]

/-! ### Every construction: the earlier state and the frame (rules R94, R104, R133) -/

/-- With `FAULT = 0` the operands alone decide what a construction command comes to: the error it raises, or the Generator
State and accumulator it leaves (rule R104). -/
theorem exec_construction_of_noFault {i : Instr} (hi : isConstruction i = true) :
    (∃ k, ∀ s : State, s.fault = false → exec i s = .next (raiseFault s.latSeed k s)) ∨
      (∃ g a, ∀ s : State, s.fault = false → exec i s = .next (finishConstruction g a s)) := by
  cases i with
  | seedU64 seed => exact .inr ⟨_, _, fun s hs => by rw [exec_of_noFault hs, execBody, constructFromSeed]⟩
  | seedBytes bytes => exact .inr ⟨_, _, fun s hs => by rw [exec_of_noFault hs, execBody, constructFromSeed]⟩
  | seedStream seed k n =>
    by_cases hn : n = 0
    · exact .inl ⟨_, fun s hs => by rw [exec_of_noFault hs, execBody, hn, constructCheckedStream_of_zero]⟩
    · rcases Nat.lt_or_ge k.toNat n.toNat with hk | hk
      · exact .inr ⟨_, _, fun s hs => by
          rw [exec_of_noFault hs, execBody, constructCheckedStream_of_lt hk, constructStream]⟩
      · exact .inl ⟨_, fun s hs => by rw [exec_of_noFault hs, execBody, constructCheckedStream_of_le hn hk]⟩
  | nextU64 => cases hi
  | nextU32 => cases hi

/-- Settles O21: of the two outcomes of `exec_construction_of_noFault`, the error does not succeed. -/
theorem constructionIgnoresTheEarlierState : Obligations.ConstructionIgnoresTheEarlierState := by
  intro i s s' t t' hi hs hs' h h' ht
  rcases exec_construction_of_noFault hi with ⟨k, hk⟩ | ⟨g, a, hga⟩
  · rw [hk s hs] at h
    obtain rfl := Host.Outcome.next.inj h
    simp at ht
  · rw [hga s hs] at h
    rw [hga s' hs'] at h'
    obtain rfl := Host.Outcome.next.inj h
    obtain rfl := Host.Outcome.next.inj h'
    simp [hs']

/-- Settles O24: the answer Faulted, an error and a completed construction each write only their own fields. -/
theorem constructionFrame : Obligations.ConstructionFrame := by
  intro i s t hi h
  cases hf : s.fault with
  | true =>
    rw [exec_construction_of_fault hi hf] at h
    obtain rfl := Host.Outcome.next.inj h
    simp [hf]
  | false =>
    rcases exec_construction_of_noFault hi with ⟨k, hk⟩ | ⟨g, a, hga⟩
    · rw [hk s hf] at h
      obtain rfl := Host.Outcome.next.inj h
      simp
    · rw [hga s hf] at h
      obtain rfl := Host.Outcome.next.inj h
      simp [hf]

end Sys2Proof.Machine
end

section
/-!
PROOFS. The first words of the streams of a family, under the order of this hardware on the tested set, and under the rejected
order for every seed (rule R102): O23.
-/

namespace Sys2Proof.Machine

/-- Under the rejected order the offset comes last (C4). -/
theorem placeStream_of_afterWarmup {c : Config} (h : c.offsetOrder = .afterWarmup) (off : Word) (g : Generator) :
    placeStream c off g = offsetFastLoop off (warmup c g) := by
  rw [placeStream, h]

/-- The word a step returns does not see an offset (rule R115). -/
theorem coreStep_fst_offsetFastLoop {c : Config} (h : c.stepFn = stepV3) (off : Word) (g : Generator) :
    (coreStep c (offsetFastLoop off g)).1 = g.mix + g.loopMix := by
  rw [coreStep, h, stepV3, offsetFastLoop_mix, offsetFastLoop_loopMix]

/-- Under the rejected order a stream's first word depends on the seed only. -/
theorem firstWord_of_afterWarmup {c : Config} (horder : c.offsetOrder = .afterWarmup) (hstep : c.stepFn = stepV3)
    (seed i n : Word) :
    firstWord c seed i n =
      (warmup c (drawState c seed).gen).mix + (warmup c (drawState c seed).gen).loopMix := by
  rw [firstWord, placeStream_of_afterWarmup horder, coreStep_fst_offsetFastLoop hstep]

/-- The computation of rule R102. -/
theorem firstWords_of_testedSet_differ :
    (testedSeeds.all fun seed => [2, 3, 4, 5, 6, 7, 8].all fun n =>
      noRepeats ((List.range n).map fun i => firstWord config seed (BitVec.ofNat 64 i) (BitVec.ofNat 64 n))) = true := by
  decide +kernel

/-- Settles O23: the tested set is computed, and under the rejected order the index plays no part. -/
theorem streamsSeparateOnTheTestedSet : Obligations.StreamsSeparateOnTheTestedSet :=
  ⟨firstWords_of_testedSet_differ, fun seed i j n => by
    rw [firstWord_of_afterWarmup rfl rfl, firstWord_of_afterWarmup rfl rfl]⟩

end Sys2Proof.Machine
end

section
/-!
PROOFS. The step's equations and its inverse, and the counter `FAST_LOOP` (rules R110 to R115): O6 to O10.
-/

namespace Sys2Proof.Machine

/-! ### The step and its inverse -/

/-- The model's rotation is the library's. -/
theorem rotl64_eq_rotateLeft {k : Nat} (hk : k < 64) (a : Word) : rotl64 a k = a.rotateLeft k := by
  rw [rotl64, BitVec.rotateLeft_def, Nat.mod_eq_of_lt hk]

/-- Settles O6: the equations of `stepV3` with this hardware's parameters, its rotations the library's. -/
theorem stepFollowsItsEquations : Obligations.StepFollowsItsEquations := by
  intro f m l
  rw [coreStep_config, stepV3, rotl64_eq_rotateLeft (by decide), rotl64_eq_rotateLeft (by decide)]

/-- The step undoes rule R113's formula, for any `FL_INC` and any rotations of at most 64 places. -/
theorem stepV3_unstepV3 {rotB : Nat} (hB : rotB ≤ 64) (flInc : Word) (rotA : Nat) (g : Generator) :
    (stepV3 flInc rotA rotB (unstepV3 flInc rotA rotB g)).2 = g := by
  have hrot (a : Word) : rotl64 (rotl64 a (64 - rotB)) rotB = a := by
    simpa [Nat.sub_sub_self hB] using rotl64_rotl64_complement (Nat.sub_le 64 rotB) a
  have hmix (a b : Word) : a + (b - a) = b := add_sub_cancel a b
  have hloop (a b : Word) : a ^^^ (b ^^^ a) = b := by
    rw [BitVec.xor_comm b, ← BitVec.xor_assoc, BitVec.xor_self, BitVec.zero_xor]
  simp only [stepV3, unstepV3, hrot, hmix, hloop, sub_add_cancel]

/-- Settles O7: `unstepV3_stepV3` and `stepV3_unstepV3` at this hardware's rotations, and the formula with its rotations
the library's. -/
theorem stepIsABijectionWithItsInverse : Obligations.StepIsABijectionWithItsInverse := by
  rw [Obligations.StepIsABijectionWithItsInverse, coreStep_config, config_flInc, config_rotA, config_rotB]
  refine ⟨unstepV3_stepV3 (by decide) _ _, stepV3_unstepV3 (by decide) _ _, fun f m l => ?_⟩
  rw [unstepV3, rotl64_eq_rotateLeft (by decide), rotl64_eq_rotateLeft (by decide)]

/-- The state whose step ends all zero: rule R113's formula at zero. -/
def stepsToZero : Generator :=
  { fastLoop := 0x6666666666666667, mix := 0x6666666666666667, loopMix := 0x999998999a999999 }

theorem coreStep_stepsToZero :
    coreStep config stepsToZero = (0xffffff0001000000, { fastLoop := 0, mix := 0, loopMix := 0 }) := by
  decide +kernel

theorem coreStep_eq_zero_iff (g : Generator) :
    (coreStep config g).2 = { fastLoop := 0, mix := 0, loopMix := 0 } ↔ g = stepsToZero :=
  calc (coreStep config g).2 = { fastLoop := 0, mix := 0, loopMix := 0 }
      ↔ (coreStep config g).2 = (coreStep config stepsToZero).2 := by rw [coreStep_stepsToZero]
    _ ↔ g = stepsToZero := coreStep_injective.eq_iff

/-- Settles O8: the step from zero and the step to zero are computed, and the step is injective. -/
theorem allZeroStateHasOnePredecessor : Obligations.AllZeroStateHasOnePredecessor :=
  ⟨by decide +kernel, coreStep_eq_zero_iff, congrArg Prod.fst coreStep_stepsToZero⟩

/-- Settles O10: `FAST_LOOP` enters a step only through `LOOP_MIX`, which the next step's word adds to `MIX`. -/
theorem fastLoopReachesTheSecondWord : Obligations.FastLoopReachesTheSecondWord := by
  intro f f' m l
  simp only [stepFollowsItsEquations f m l, stepFollowsItsEquations f' m l, stepFollowsItsEquations _ _ (_ ^^^ _),
    true_and]
  rw [add_right_inj, BitVec.xor_left_inj]

/-! ### The counter `FAST_LOOP` -/

/-- The inverse of `FL_INC` modulo 2^64. -/
def flIncInverse : Word := 0xaaaaaaaaaaaaaaa9

theorem flInc_mul_flIncInverse : 0x9999999999999999#64 * flIncInverse = 1#64 := by decide

/-- The number of steps is determined modulo 2^64 by what they do to `FAST_LOOP` (rule R112). -/
theorem advance_fastLoop_eq_iff (k : Nat) (g : Generator) (v : Word) :
    (advance config k g).fastLoop = v ↔ BitVec.ofNat 64 k = (v - g.fastLoop) * flIncInverse := by
  rw [advance_fastLoop, BitVec.ofNat_mul, ← eq_sub_iff_add_eq']
  constructor
  · intro h
    rw [← h, mul_assoc, flInc_mul_flIncInverse, BitVec.mul_one]
  · intro h
    rw [h, mul_assoc, mul_comm flIncInverse, flInc_mul_flIncInverse, BitVec.mul_one]

theorem ofNat_eq_iff_of_lt {k : Nat} (hk : k < 2 ^ 64) (w : Word) : BitVec.ofNat 64 k = w ↔ k = w.toNat := by
  rw [← BitVec.toNat_inj, BitVec.toNat_ofNat, Nat.mod_eq_of_lt hk]

/-- Settles O9: by `advance_fastLoop_eq_iff` the number of steps to a value is a 64-bit word, and 0 for the value
`FAST_LOOP` has already. -/
theorem fastLoopVisitsEveryValue : Obligations.FastLoopVisitsEveryValue := by
  refine ⟨fun g v => ?_, fun g n h => ?_⟩
  · have hsteps {k : Nat} (hk : k < 2 ^ 64) :
        (advance config k g).fastLoop = v ↔ k = ((v - g.fastLoop) * flIncInverse).toNat :=
      (advance_fastLoop_eq_iff k g v).trans (ofNat_eq_iff_of_lt hk _)
    exact ⟨_, ⟨BitVec.isLt _, (hsteps (BitVec.isLt _)).2 rfl⟩, fun k ⟨hk, hv⟩ => (hsteps hk).1 hv⟩
  · have hzero : BitVec.ofNat 64 n = 0 := by
      rw [(advance_fastLoop_eq_iff n g g.fastLoop).1 (by rw [h]), sub_self, zero_mul]
    exact Nat.dvd_of_mod_eq_zero (by simpa using congrArg BitVec.toNat hzero)

end Sys2Proof.Machine
end

section
/-!
PROOFS. What the sampling commands leave (rules R116, R117, R120): O25, O26 and O27.
-/

namespace Sys2Proof.Machine

/-! ### The three ways of a sampling command -/

theorem mode_eq_ready_iff (s : State) : s.mode = .ready ↔ s.fault = false ∧ s.seeded = true := by
  unfold State.mode
  cases s.fault <;> cases s.seeded <;> decide

section
variable {i : Instr} {s : State} (hi : isConstruction i = false)
include hi

/-- In mode READY a sampling command takes one step and answers with its view of the word. -/
theorem exec_sampling_of_ready (hf : s.fault = false) (hs : s.seeded = true) :
    exec i s = .next (finishSample (coreStep config s.gen).2 (sampleView i (coreStep config s.gen).1) s) := by
  cases i
  case nextU64 => rw [exec_of_noFault hf, execBody, sample, if_pos hs, sampleView, if_neg (by decide), id]
  case nextU32 => rw [exec_of_noFault hf, execBody, sample, if_pos hs, sampleView, if_pos rfl]
  all_goals cases hi

theorem exec_sampling_of_unseeded (hf : s.fault = false) (hs : s.seeded = false) :
    exec i s = .next { s with
      fault := true, errcode := 3, ctrl := .busy s.latNext { status := 3, data := 0 } } := by
  have hs' : ¬s.seeded = true := by simp [hs]
  cases i
  case nextU64 => rw [exec_of_noFault hf, execBody, sample, if_neg hs', raiseFault_eq, statusBits]
  case nextU32 => rw [exec_of_noFault hf, execBody, sample, if_neg hs', raiseFault_eq, statusBits]
  all_goals cases hi

theorem exec_sampling_of_fault (hf : s.fault = true) :
    exec i s = .next { s with ctrl := .busy s.latNext { status := 5, data := 0 } } := by
  rw [exec_eq_unlessFaulted, unlessFaulted_of_fault hf, instrLatency, if_neg (by simp [hi]), respond_eq,
    config_noWordData, statusBits]

end

/-! ### The commands one by one -/

/-- The step of rule R110, on the fields of a Generator State. -/
theorem coreStep_eq (g : Generator) :
    coreStep config g =
      (g.mix + g.loopMix,
        { fastLoop := g.fastLoop + 0x9999999999999999
          mix := g.mix.rotateLeft 16 + g.loopMix.rotateLeft 40
          loopMix := g.fastLoop ^^^ g.mix }) :=
  stepFollowsItsEquations g.fastLoop g.mix g.loopMix

/-- The response data of NEXT_U32 is the word shifted right by 32 (rule R117). -/
theorem highHalf_eq_shift (w : Word) : highHalf w = w >>> 32 := by
  apply BitVec.eq_of_toNat_eq
  have hlt : w.toNat >>> 32 < 2 ^ 32 := by
    rw [Nat.shiftRight_eq_div_pow]
    exact Nat.div_lt_of_lt_mul w.isLt
  rw [highHalf, BitVec.toNat_setWidth, BitVec.extractLsb'_toNat, BitVec.toNat_ushiftRight, Nat.mod_eq_of_lt hlt,
    Nat.mod_eq_of_lt (hlt.trans (by decide))]

/-- Settles O25: the three ways of a sampling command, with the step written out. -/
theorem nextU64Samples : Obligations.NextU64Samples := fun s =>
  ⟨fun hf hs => by
    rw [exec_sampling_of_ready rfl hf hs, finishSample_eq, coreStep_eq, sampleView, if_neg (by decide)],
    exec_sampling_of_unseeded rfl, exec_sampling_of_fault rfl⟩

/-- Settles O26: the three ways of a sampling command, with the step and the high half written out. -/
theorem nextU32Samples : Obligations.NextU32Samples := fun s =>
  ⟨fun hf hs => by
    rw [exec_sampling_of_ready rfl hf hs, finishSample_eq, coreStep_eq, sampleView, if_pos rfl, highHalf_eq_shift],
    exec_sampling_of_unseeded rfl, exec_sampling_of_fault rfl⟩

/-- Settles O27: the frame is read off each of the three ways of a sampling command. -/
theorem samplingFrame : Obligations.SamplingFrame := by
  intro i s t hi h
  rw [ne_eq, mode_eq_ready_iff]
  cases hf : s.fault with
  | true =>
    rw [exec_sampling_of_fault hi hf] at h
    obtain rfl := Host.Outcome.next.inj h
    simp [hf]
  | false =>
    cases hs : s.seeded with
    | true =>
      rw [exec_sampling_of_ready hi hf hs] at h
      obtain rfl := Host.Outcome.next.inj h
      simp [hf, hs, statusBits]
    | false =>
      rw [exec_sampling_of_unseeded hi hf hs] at h
      obtain rfl := Host.Outcome.next.inj h
      simp [hs]

end Sys2Proof.Machine
end

section
/-!
PROOFS. FILL against the NEXT_U64 commands it sends (rules R44, R118, R119): O54.
-/

namespace Sys2Proof.Machine

/-! ### The bytes of a buffer -/

theorem length_le8 (w : Word) : (le8 w).length = 8 := by rw [le8, List.length_map, List.length_range]

/-- The bytes of word `j` that a buffer of `n` bytes takes are the first of its little-endian bytes. -/
theorem fillChunk_eq_take (n j : Nat) (w : Word) : fillChunk n j w = (le8 w).take (n - 8 * j) := by
  have hfits : (fun k => decide (8 * j + k < n)) = fun k => decide (k < n - 8 * j) := by
    funext k
    rw [decide_eq_decide]
    omega
  rw [fillChunk, le8, hfits, ← List.map_take, List.take_range, ← List.Ico.zero_bot, List.Ico.filter_lt, List.Ico.zero_bot,
    Nat.min_comm]

/-- The little-endian bytes of the words that a sequence of responses carries. -/
def responseBytes (rs : List Response) : List Byte := rs.flatMap fun r => le8 r.data

/-- The bytes from word `j` on are those of word `j` and those from word `j + 1` on. -/
theorem take_responseBytes_cons (n j : Nat) (r : Response) (rs : List Response) :
    (responseBytes (r :: rs)).take (n - 8 * j) =
      fillChunk n j r.data ++ (responseBytes rs).take (n - 8 * (j + 1)) := by
  rw [responseBytes, List.flatMap_cons, List.take_append, length_le8, fillChunk_eq_take, Nat.mul_succ, Nat.sub_add_eq,
    responseBytes]

theorem length_responseBytes (rs : List Response) : (responseBytes rs).length = 8 * rs.length := by
  induction rs with
  | nil => rfl
  | cons r rs ih =>
    rw [responseBytes, List.flatMap_cons, List.length_append, length_le8, ← responseBytes, ih, List.length_cons,
      Nat.mul_succ, Nat.add_comm]

/-- `ceil(n / 8)` words are enough for `n` bytes. -/
theorem le_fillCommands (n : Nat) : n ≤ 8 * fillCommands n := by
  rw [fillCommands]
  omega

theorem exists_fillCommands_eq_succ {n : Nat} (h : 0 < n) : ∃ c, fillCommands n = c + 1 :=
  Nat.exists_eq_add_one.2 (by rw [fillCommands]; omega)

/-! ### The commands of FILL -/

/-- A block that FILL samples without an error: it is idle, was reset, and is in mode READY. -/
structure CanFill (s : State) : Prop where
  idle : s.canTransact = true
  ready : s.mode = .ready

/-- A NEXT_U64 of FILL is answered OK, and the next can follow (rule R116). -/
theorem transact_nextU64_of_canFill {s : State} (h : CanFill s) :
    ∃ t r, transact (encodeWord .nextU64) (encodeOperands .nextU64) s = some (t, r) ∧ r.status = 0 ∧ CanFill t := by
  obtain ⟨hf, hs⟩ := (mode_eq_ready_iff s).1 h.ready
  have haccept := (accept_of_decode (decodeOfEncodeIsTheInstruction .nextU64 rfl) s).trans
    (exec_sampling_of_ready rfl hf hs)
  refine ⟨_, _, transact_of_accept h.idle haccept (finishSample_ctrl _ _ s), by rw [statusBits], ?idle, ?ready⟩
  case idle => simpa [canTransact_iff] using ((canTransact_iff s).1 h.idle).1
  case ready => simpa [mode_eq_ready_iff] using And.intro hf hs

theorem fillLoop_succ {s t : State} {r : Response}
    (h : transact (encodeWord .nextU64) (encodeOperands .nextU64) s = some (t, r)) (hr : r.status = 0)
    (n c j : Nat) (buffer : List Byte) :
    fillLoop n (c + 1) j buffer s = fillLoop n c (j + 1) (buffer ++ fillChunk n j r.data) t := by
  rw [fillLoop, h]
  exact if_pos hr

/-- FILL's loop against the commands it sends, from word `j` on. -/
theorem fillLoop_eq_hostRun (n c : Nat) {s : State} (h : CanFill s) (j : Nat) (buffer : List Byte) :
    ∃ t rs, hostRun (List.replicate c (sendInstr .nextU64)) s = some (t, rs) ∧ rs.length = c ∧
      (∀ r ∈ rs, r.status = 0) ∧
      fillLoop n c j buffer s = some (t, buffer ++ (responseBytes rs).take (n - 8 * j)) := by
  induction c generalizing s j buffer with
  | zero => exact ⟨s, [], hostRun_nil s, rfl, by simp, by simp [fillLoop, responseBytes]⟩
  | succ c ih =>
    obtain ⟨t, r, htransact, hr, ht⟩ := transact_nextU64_of_canFill h
    obtain ⟨u, rs, hrun, hlength, hok, hfill⟩ := ih ht (j + 1) (buffer ++ fillChunk n j r.data)
    refine ⟨u, r :: rs, ?run, congrArg Nat.succ hlength, List.forall_mem_cons.2 ⟨hr, hok⟩, ?fill⟩
    case run => rw [List.replicate_succ, sendInstr, hostRun_send htransact, ← sendInstr, hrun]; rfl
    case fill => rw [fillLoop_succ htransact hr, hfill, take_responseBytes_cons, List.append_assoc]

/-- Settles O54: `fillLoop_eq_hostRun` from word 0 on, with as many words as `n` bytes need; and a block that cannot start
a transaction refuses the first command. -/
theorem fillMatchesSuccessiveWords : Obligations.FillMatchesSuccessiveWords := by
  refine ⟨fun n s hreset hidle hready => ?samples, fun n s hn hcannot => ?refuses⟩
  case samples =>
    obtain ⟨t, rs, hrun, hlength, hok, hfill⟩ :=
      fillLoop_eq_hostRun n (fillCommands n) ⟨(canTransact_iff s).2 ⟨hreset, hidle⟩, hready⟩ 0 []
    have henough : n ≤ (responseBytes rs).length := by
      rw [length_responseBytes, hlength]
      exact le_fillCommands n
    exact ⟨t, rs, hrun, hok, hfill, List.length_take_of_le henough⟩
  case refuses =>
    obtain ⟨c, hc⟩ := exists_fillCommands_eq_succ hn
    have hs := (canTransact_eq_false_iff s).2 hcannot
    rw [HostLine.expand, hostFill, hc]
    exact ⟨hostRun_of_cannot hs _ _ _, fillLoop_of_cannot hs n c 0 []⟩

end Sys2Proof.Machine
end

section
/-!
PROOFS. Errors (rules R130 to R137): fault entry, the answer of a faulted block, and the order of the checks; and the registers
between commands (rule R148). O28, O30, O31, O32 and O50.
-/

namespace Sys2Proof.Machine

/-! ### Fault entry (rules R131, R133) -/

/-- Settles O28: both commands sample, and an unseeded block raises NotSeeded. -/
theorem unseededSamplingRaisesNotSeeded : Obligations.UnseededSamplingRaisesNotSeeded := by
  intro i s hi hf hs
  have hsampling : isConstruction i = false := by rcases hi with rfl | rfl <;> rfl
  exact exec_sampling_of_unseeded hsampling hf hs

/-- A word whose acceptance sets `FAULT` has raised one of the recorded codes, after the latency of the word. -/
theorem eq_raiseFault_of_fault_rises {w : Byte} {opd : Operands} {s t : State} (hs : s.fault = false)
    (h : accept w opd s = .next t) (ht : t.fault = true) :
    ∃ k : StatusCode, k.isRecorded = true ∧ t = raiseFault (latencyOf w s) k s := by
  obtain ⟨u, r, hu, hctrl⟩ := accept_ctrl w opd s
  obtain rfl : u = t := Host.Outcome.next.inj (hu.symm.trans h)
  cases acceptEnd_of_accept h with
  | faulted n hf => simp [hs] at hf
  | raised n k _ hk =>
    rw [raiseFault_ctrl] at hctrl
    obtain ⟨rfl, -⟩ := Controller.busy.inj hctrl
    exact ⟨k, hk, rfl⟩
  | constructed i g a _ _ _ => simp [hs] at ht
  | sampled g d _ _ => simp [hs] at ht

/-- Settles O30: the command raised a recorded code, and `raiseFault` writes nothing else. -/
theorem faultEntryIsPrecise : Obligations.FaultEntryIsPrecise := by
  intro w opd s t hs h ht
  obtain ⟨k, hk, rfl⟩ := eq_raiseFault_of_fault_rises hs h ht
  obtain ⟨hlow, hhigh⟩ := statusBits_recorded hk
  exact ⟨statusBits k, hlow, hhigh, raiseFault_eq _ k s⟩

/-! ### The answer of a faulted block (rule R134) -/

/-- With `FAULT = 1` any word, whether it spells a command or not, is answered Faulted. -/
theorem accept_of_fault {s : State} (hf : s.fault = true) (w : Byte) (opd : Operands) :
    accept w opd s = .next (respond (latencyOf w s) .faulted config.noWordData s) := by
  rcases accept_cases w opd s with ⟨i, hd, e⟩ | ⟨hw, -, e⟩ | ⟨-, hf', -⟩
  · rw [e, exec_eq_unlessFaulted, unlessFaulted_of_fault hf, latencyOf_of_decode hd]
  · rw [e, latencyOf_of_illegal hw]
  · simp [hf] at hf'

/-- Settles O31: the answer is `respond`, which writes the controller only. -/
theorem faultedBlockServesNothing : Obligations.FaultedBlockServesNothing := by
  intro w opd s hf
  rw [accept_of_fault hf, respond_eq, config_noWordData, statusBits]

/-! ### The order of the checks (rule R137) -/

/-- The code that the first check of rule R137 to apply decides. -/
def priorityCode (w : Byte) (opd : Operands) (s : State) : StatusCode :=
  if s.fault = true then .faulted
  else if decodeWord w = .illegal then .illegalCommand
  else if (w = 0x04 ∨ w = 0x05) ∧ s.seeded = false then .notSeeded
  else if w = 0x03 ∧ opdTotalStreams opd = 0 then .invalidStreamCount
  else if w = 0x03 ∧ (opdTotalStreams opd).toNat ≤ (opdStreamIndex opd).toNat then .invalidStreamIndex
  else .ok

/-- Accepting the word is answered with the code `k`. -/
def Reports (w : Byte) (opd : Operands) (s : State) (k : StatusCode) : Prop :=
  ∃ t d, accept w opd s = .next t ∧ t.held = some { status := statusBits k, data := d }

theorem reports_of_raiseFault {w : Byte} {opd : Operands} {s : State} {n : Nat} {k : StatusCode}
    (h : accept w opd s = .next (raiseFault n k s)) : Reports w opd s k :=
  ⟨_, _, h, raiseFault_held n k s⟩

theorem word_of_decode_sampling {w : Byte} {opd : Operands} {i : Instr} (hd : decode w opd = some i)
    (hi : isConstruction i = false) : w = 0x04 ∨ w = 0x05 := by
  rw [← encodeWord_of_decode hd]
  cases i
  case nextU64 => exact .inl rfl
  case nextU32 => exact .inr rfl
  all_goals cases hi

theorem fields_of_decode_seedStream {w : Byte} {opd : Operands} {seed k n : Word}
    (hd : decode w opd = some (.seedStream seed k n)) :
    w = 0x03 ∧ opdStreamIndex opd = k ∧ opdTotalStreams opd = n := by
  have hopd := assembleOperands_name_of_decode hd
  cases hopd
  exact ⟨(encodeWord_of_decode hd).symm, rfl, rfl⟩

section
variable {s : State} (hf : s.fault = false)
include hf

theorem reports_illegalCommand {w : Byte} (hw : decodeWord w = .illegal) (opd : Operands) :
    Reports w opd s .illegalCommand := by
  refine reports_of_raiseFault (n := s.latIllegal) ?_
  rw [accept_of_illegal ((decode_eq_none_iff w opd).2 hw), takeIllegal, unlessFaulted_of_noFault hf]

theorem reports_notSeeded {w : Byte} (hw : w = 0x04 ∨ w = 0x05) (hs : s.seeded = false) (opd : Operands) :
    Reports w opd s .notSeeded := by
  rcases hw with rfl | rfl
  · exact ⟨_, _, (accept_nextU64 opd s).trans (exec_sampling_of_unseeded rfl hf hs), rfl⟩
  · exact ⟨_, _, (accept_nextU32 opd s).trans (exec_sampling_of_unseeded rfl hf hs), rfl⟩

theorem reports_invalidStreamCount {opd : Operands} (hn : opdTotalStreams opd = 0) :
    Reports 0x03 opd s .invalidStreamCount := by
  refine reports_of_raiseFault (n := s.latSeed) ?_
  rw [accept_seedStream, exec_of_noFault hf, execBody, hn, constructCheckedStream_of_zero]

theorem reports_invalidStreamIndex {opd : Operands} (hn : opdTotalStreams opd ≠ 0)
    (hk : (opdTotalStreams opd).toNat ≤ (opdStreamIndex opd).toNat) :
    Reports 0x03 opd s .invalidStreamIndex := by
  refine reports_of_raiseFault (n := s.latSeed) ?_
  rw [accept_seedStream, exec_of_noFault hf, execBody, constructCheckedStream_of_le hn hk]

/-- A word to which no check applies runs its command, and this succeeds. -/
theorem reports_ok {w : Byte} {opd : Operands} (hw : decodeWord w ≠ .illegal)
    (hseeded : ¬((w = 0x04 ∨ w = 0x05) ∧ s.seeded = false)) (hcount : ¬(w = 0x03 ∧ opdTotalStreams opd = 0))
    (hindex : ¬(w = 0x03 ∧ (opdTotalStreams opd).toNat ≤ (opdStreamIndex opd).toNat)) : Reports w opd s .ok := by
  obtain ⟨i, hd⟩ := Option.ne_none_iff_exists'.1 (mt (decode_eq_none_iff w opd).1 hw)
  obtain ⟨t, ht, hcases⟩ := exec_cases i s
  rw [← accept_of_decode hd] at ht
  rcases hcases with ⟨hf', -⟩ | ⟨-, hi, hs, -⟩ | ⟨-, ⟨seed, k, n, rfl, hn⟩, -⟩ | ⟨-, ⟨seed, k, n, rfl, -, hk⟩, -⟩ |
    ⟨-, -, -, g, a, rfl⟩ | ⟨-, -, -, rfl⟩
  · simp [hf] at hf'
  · exact absurd ⟨word_of_decode_sampling hd hi, hs⟩ hseeded
  · obtain ⟨hword, -, rfl⟩ := fields_of_decode_seedStream hd
    exact absurd ⟨hword, hn⟩ hcount
  · obtain ⟨hword, rfl, rfl⟩ := fields_of_decode_seedStream hd
    exact absurd ⟨hword, hk⟩ hindex
  · exact ⟨_, _, ht, finishConstruction_held g a s⟩
  · exact ⟨_, _, ht, finishSample_held _ _ s⟩

end

theorem reports_priorityCode (w : Byte) (opd : Operands) (s : State) : Reports w opd s (priorityCode w opd s) := by
  unfold priorityCode
  split_ifs with hfault hw hseeded hcount hindex
  · exact ⟨_, _, accept_of_fault hfault w opd, respond_held _ _ _ s⟩
  all_goals have hf : s.fault = false := Bool.eq_false_of_not_eq_true hfault
  · exact reports_illegalCommand hf hw opd
  · exact reports_notSeeded hf hseeded.1 hseeded.2 opd
  · obtain ⟨rfl, hn⟩ := hcount
    exact reports_invalidStreamCount hf hn
  · obtain ⟨rfl, hk⟩ := hindex
    exact reports_invalidStreamIndex hf (fun hn => hcount ⟨rfl, hn⟩) hk
  · exact reports_ok hf hw hseeded hcount hindex

/-- Only a command that was decoded and run is answered OK. -/
theorem decoded_of_accept_ok {w : Byte} {opd : Operands} {s t : State} {r : Response} (h : accept w opd s = .next t)
    (hheld : t.held = some r) (hr : r.status = 0) : ∃ i, decode w opd = some i ∧ exec i s = .next t := by
  rcases accept_cases w opd s with ⟨i, hd, e⟩ | ⟨-, -, e⟩ | ⟨-, -, e⟩ <;> rw [e] at h
  · exact ⟨i, hd, h⟩
  · obtain rfl := Host.Outcome.next.inj h
    obtain rfl := Option.some.inj hheld
    exact absurd hr (by decide)
  · obtain rfl := Host.Outcome.next.inj h
    obtain rfl := Option.some.inj hheld
    exact absurd hr (by decide)

/-- Settles O32: the word reports `priorityCode`, whose chain is the one the statement writes in numbers. -/
theorem statusFollowsThePriority : Obligations.StatusFollowsThePriority := by
  intro w opd s
  obtain ⟨t, d, h, hheld⟩ := reports_priorityCode w opd s
  refine ⟨t, _, h, hheld, ?chain, decoded_of_accept_ok h hheld⟩
  case chain =>
    simp only [priorityCode, apply_ite statusBits]
    rfl

/-! ### Between commands (rule R148) -/

/-- Settles O50: of the three things an edge can do, only the last takes no reset and accepts nothing. -/
theorem blockHoldsItsStateBetweenCommands : Obligations.BlockHoldsItsStateBetweenCommands := by
  intro s t h hrst hquiet
  rcases step_registers h with ⟨hr, -⟩ | ⟨-, hacc, -⟩ | ⟨-, -, hsame⟩
  · simp [hrst] at hr
  · simp [hquiet] at hacc
  · exact ⟨hsame.gen, hsame.smAcc, hsame.seeded, hsame.fault, hsame.errcode⟩

end Sys2Proof.Machine
end

section
/-!
PROOFS. What reset leaves (rules R138, R150): O44 and O45.
-/

namespace Sys2Proof.Machine

/-- An idle block is ready for a command once reset is low (rule R61). -/
theorem cmdReady_of_idle {s : State} (hc : s.ctrl = .idle) (hrst : s.pins.rst = false) : s.cmdReady = true := by
  simp [State.cmdReady, hc, hrst]

/-- At a reset edge no response is taken (log 25). -/
theorem takenResponse_of_rst {s : State} (hrst : s.pins.rst = true) : takenResponse s = none := by
  rw [takenResponse, if_pos hrst]

/-- Settles O44: the edge takes reset, and each field of what it leaves is that of `State.reset`. -/
theorem resetLeavesTheBlockUnseededAndIdle : Obligations.ResetLeavesTheBlockUnseededAndIdle := by
  refine ⟨fun s hrst => ⟨takenResponse_of_rst hrst, _, step_of_rst hrst, ?after⟩, ?reset⟩
  case after => exact ⟨rfl, rfl, rfl, rfl, rfl, rfl, rfl, cmdReady_of_idle rfl, rfl, rfl, rfl⟩
  case reset => exact ⟨rfl, rfl, rfl, rfl, rfl, rfl, cmdReady_of_idle rfl rfl, rfl⟩

/-- Settles O45: the reset state is what taking reset leaves of itself. -/
theorem resetSatisfiesTheInvariant : Obligations.ResetSatisfiesTheInvariant := inv_takeReset State.reset

end Sys2Proof.Machine
end

section
/-!
PROOFS. What every edge does: the status port, a block that was reset going on, and a command in progress completing (rules
R152, R163, R164, R165); O48, O52 and O59.
-/

namespace Sys2Proof.Machine

/-! ### The status port (rule R163) -/

/-- The edge from `s` to `t` presents a response: `rsp_valid` rises. -/
def Presents (s t : State) : Prop := s.rspValid = false ∧ t.rspValid = true

theorem presents_of_busy {s : State} {n : Nat} {r : Response} (hc : s.ctrl = .busy n r) :
    Presents s (s.nextInputs.present r) :=
  ⟨by simp [State.rspValid, State.rspPort, hc], rfl⟩

/-- An accepted command leaves the status port as it is, and its response is not presented yet. -/
theorem AcceptEnd.statusPort {w : Byte} {opd : Operands} {s t : State} (h : AcceptEnd w opd s t) :
    t.statusPort = s.statusPort ∧ t.rspValid = false := by
  cases h <;> exact ⟨rfl, rfl⟩

/-- An edge without reset presents a response, with the flags on the status port, or presents none and keeps the port. -/
theorem step_statusPort {s t : State} (h : step s = .next t) (hrst : s.pins.rst = false) :
    (Presents s t ∧ t.statusPort = t.flagsByte) ∨ (¬Presents s t ∧ t.statusPort = s.statusPort) := by
  rcases step_cases h with ⟨hr, -⟩ | ⟨-, -, hrun⟩
  · simp [hrst] at hr
  · rcases hrun with ⟨-, -, haccept⟩ | ⟨-, -, rfl⟩ | ⟨n, r, hc, -, rfl⟩ | ⟨n, r, -, -, rfl⟩ | ⟨r, -, -, rfl⟩ |
      ⟨r, hc, -, rfl⟩
    · obtain ⟨hport, hvalid⟩ := (acceptEnd_of_accept haccept).statusPort
      exact .inr ⟨fun hp => by simp [Presents, hvalid] at hp, hport⟩
    · exact .inr ⟨fun ⟨hs, ht⟩ => Bool.false_ne_true (hs.symm.trans ht), rfl⟩
    · exact .inl ⟨presents_of_busy hc, rfl⟩
    · exact .inr ⟨fun ⟨_, ht⟩ => Bool.false_ne_true ht, rfl⟩
    · exact .inr ⟨fun ⟨_, ht⟩ => Bool.false_ne_true ht, rfl⟩
    · exact .inr ⟨fun ⟨hs, ht⟩ => Bool.false_ne_true (hs.symm.trans ht), rfl⟩

/-- Settles O48: the two ways of `step_statusPort` exclude each other. -/
theorem statusPortTiming : Obligations.StatusPortTiming := by
  intro s t h hrst
  rcases step_statusPort h hrst with ⟨hpresents, hport⟩ | ⟨hno, hport⟩
  · exact ⟨fun _ _ => hport, fun hno => absurd hpresents hno⟩
  · exact ⟨fun hs ht => absurd ⟨hs, ht⟩ hno, fun _ => hport⟩

/-! ### A block that was reset (rules R152, R165) -/

/-- A block that was reset has a next state at every edge that accepts a command, and its response is then held. -/
theorem step_accepts {s : State} (hs : s.wasReset = true) (h : s.accepts = true) :
    ∃ t r, step s = .next t ∧ t.held = some r ∧ t.wasReset = true := by
  obtain ⟨t, r, haccept, hbusy⟩ := accept_ctrl s.pins.cmdWord s.pins.cmdOpd s.nextInputs
  have hreset : t.wasReset = s.wasReset := (acceptEnd_of_accept haccept).keeps_parameters.2
  exact ⟨t, r, (step_of_accepts hs h).trans haccept, by rw [State.held, hbusy], hreset.trans hs⟩

/-- A block that was reset has a next state at every edge. -/
theorem step_wasReset {s : State} (hs : s.wasReset = true) : ∃ t, step s = .next t ∧ t.wasReset = true := by
  cases hrst : s.pins.rst with
  | true => exact ⟨_, step_of_rst hrst, rfl⟩
  | false =>
    cases hc : s.ctrl with
    | idle =>
      cases hvalid : s.pins.cmdValid with
      | true =>
        obtain ⟨t, -, hstep, -, ht⟩ := step_accepts hs ((accepts_iff s).2 ⟨hc, hrst, hvalid⟩)
        exact ⟨t, hstep, ht⟩
      | false =>
        refine ⟨s.nextInputs, ?_, hs⟩
        rw [step_of_running hrst hs, runEdge_idle (s := s.nextInputs) hc, if_neg (by simp [hvalid])]
    | busy n r =>
      rcases Nat.lt_or_ge 1 n with hn | hn
      · exact ⟨_, step_busy_wait hc hs hrst hn, hs⟩
      · exact ⟨_, step_busy_present hc hs hrst hn, hs⟩
    | responding r =>
      rw [step_of_running hrst hs, runEdge_responding (s := s.nextInputs) hc]
      exact ⟨_, rfl, by split <;> exact hs⟩

/-- Settles O52, by induction on the number of edges. -/
theorem blockRunsOnceReset : Obligations.BlockRunsOnceReset := by
  refine ⟨fun n => ?runs, fun s hs hrst => step_of_unreset hrst hs⟩
  case runs =>
    induction n with
    | zero => exact fun s hs => ⟨s, run_zero s, hs⟩
    | succ n ih =>
      intro s hs
      obtain ⟨t, hstep, ht⟩ := step_wasReset hs
      obtain ⟨u, hrun, hu⟩ := ih t ht
      exact ⟨u, (run_succ n hstep).trans hrun, hu⟩

/-! ### A command in progress (rule R164) -/

/-- A command in progress presents its response after a number of edges that the inputs do not change. -/
theorem exists_run_presents {s : State} {r : Response} (hs : s.wasReset = true) (hheld : s.held = some r) :
    ∃ n, ∀ inputs : List Pins, (∀ p ∈ inputs.take n, p.rst = false) →
      ∃ u, core.run n (s.withInputs inputs) = .next u ∧ u.rspPort = some r := by
  cases hc : s.ctrl with
  | idle => simp [State.held, hc] at hheld
  | busy n r' =>
    obtain rfl : r' = r := by simpa [State.held, hc] using hheld
    exact ⟨max 1 n, fun inputs hrst => run_busy (s := s.withInputs inputs) hc hs hrst⟩
  | responding r' =>
    obtain rfl : r' = r := by simpa [State.held, hc] using hheld
    exact ⟨0, fun inputs _ => ⟨_, run_zero _, rspPort_eq_some_iff.2 hc⟩⟩

/-- A presented response leaves at an edge with `rsp_ready = 1` (rule R61). -/
theorem step_taken {s : State} {r : Response} (hc : s.ctrl = .responding r) (hs : s.wasReset = true)
    (hrst : s.pins.rst = false) (hready : s.pins.rspReady = true) : step s = .next s.nextInputs.release := by
  rw [step_of_running hrst hs, runEdge_responding (s := s.nextInputs) hc, if_pos hready]

/-- Settles O59: acceptance, the wait for the response and its being taken, each by its lemma. -/
theorem everyCommandInProgressCompletes : Obligations.EveryCommandInProgressCompletes :=
  ⟨fun _ => step_accepts, fun _ _ => exists_run_presents,
    fun _ _ hs hport hrst hready => ⟨_, step_taken (rspPort_eq_some_iff.1 hport) hs hrst hready, release_ctrl _⟩⟩

end Sys2Proof.Machine
end

section
/-!
PROOFS. The boot order reset, construct, sample (rules R120, R154): O55.
-/

namespace Sys2Proof.Machine

/-! ### A command answered OK -/

/-- Sending `i` to the block `s` is answered OK, and leaves a block `t` that can be sampled. -/
def AnsweredOk (i : Instr) (s t : State) : Prop :=
  ∃ r, transact (encodeWord i) (encodeOperands i) s = some (t, r) ∧ r.status = 0 ∧ CanFill t

/-- A command that is run without an error and leaves mode READY is answered OK. -/
theorem answeredOk_of_exec {i : Instr} {s t : State} {n : Nat} {d : Word} (hwf : i.wellFormed = true)
    (hs : s.canTransact = true) (hexec : exec i s = .next t) (hc : t.ctrl = .busy n { status := 0, data := d })
    (ht : t.wasReset = true) (hready : t.mode = .ready) : ∃ u, AnsweredOk i s u := by
  have haccept := (accept_of_decode (decodeOfEncodeIsTheInstruction i hwf) s).trans hexec
  exact ⟨_, _, transact_of_accept hs haccept hc, rfl, (canTransact_iff _).2 ⟨ht, rfl⟩, hready⟩

/-- With `FAULT = 0` a construction with legal operands completes (rules R95, R96, R99). -/
theorem exec_construction_of_legal {i : Instr} {s : State} (hi : isConstruction i = true)
    (hlegal : ∀ seed k n, i = .seedStream seed k n → k.toNat < n.toNat) (hf : s.fault = false) :
    ∃ g a, exec i s = .next (finishConstruction g a s) := by
  cases i with
  | seedU64 seed => exact ⟨_, _, by rw [exec_of_noFault hf, execBody, constructFromSeed]⟩
  | seedBytes bytes => exact ⟨_, _, by rw [exec_of_noFault hf, execBody, constructFromSeed]⟩
  | seedStream seed k n =>
    exact ⟨_, _, by
      rw [exec_of_noFault hf, execBody, constructCheckedStream_of_lt (hlegal seed k n rfl), constructStream]⟩
  | nextU64 => cases hi
  | nextU32 => cases hi

theorem answeredOk_construction {i : Instr} {s : State} (hi : isConstruction i = true) (hwf : i.wellFormed = true)
    (hlegal : ∀ seed k n, i = .seedStream seed k n → k.toNat < n.toNat) (hs : s.canTransact = true)
    (hf : s.fault = false) : ∃ t, AnsweredOk i s t := by
  obtain ⟨g, a, hexec⟩ := exec_construction_of_legal hi hlegal hf
  exact answeredOk_of_exec hwf hs hexec (finishConstruction_ctrl g a s) ((canTransact_iff s).1 hs).1
    ((mode_eq_ready_iff _).2 ⟨hf, rfl⟩)

theorem wellFormed_of_sampling {i : Instr} (hi : isConstruction i = false) : i.wellFormed = true := by
  cases i with
  | nextU64 => rfl
  | nextU32 => rfl
  | seedU64 | seedBytes | seedStream => cases hi

theorem answeredOk_sampling {i : Instr} {s : State} (hi : isConstruction i = false) (h : CanFill s) :
    ∃ t, AnsweredOk i s t := by
  obtain ⟨hf, hseeded⟩ := (mode_eq_ready_iff s).1 h.ready
  refine answeredOk_of_exec (wellFormed_of_sampling hi) h.idle (exec_sampling_of_ready hi hf hseeded)
    (finishSample_ctrl _ _ s) ?wasReset ?ready
  case wasReset => rw [finishSample_wasReset, ((canTransact_iff s).1 h.idle).1]
  case ready => rw [mode_eq_ready_iff, finishSample_fault, finishSample_seeded]; exact ⟨hf, hseeded⟩

/-! ### A sequence of commands answered OK -/

/-- Sent to the block `s`, the commands are all answered OK, and they leave a block that can be sampled. -/
def RunsOk (commands : List Instr) (s : State) : Prop :=
  ∃ t rs, hostRun (commands.map sendInstr) s = some (t, rs) ∧ rs.length = commands.length ∧
    (∀ r ∈ rs, r.status = 0) ∧ CanFill t

theorem RunsOk.cons {i : Instr} {commands : List Instr} {s t : State} (hi : AnsweredOk i s t)
    (h : CanFill t → RunsOk commands t) : RunsOk (i :: commands) s := by
  obtain ⟨r, htransact, hr, ht⟩ := hi
  obtain ⟨u, rs, hrun, hlength, hok, hu⟩ := h ht
  refine ⟨u, r :: rs, ?run, congrArg Nat.succ hlength, List.forall_mem_cons.2 ⟨hr, hok⟩, hu⟩
  case run =>
    rw [List.map_cons, sendInstr, hostRun_send htransact, hrun]
    rfl

/-- In mode READY any sequence of samples is answered OK (rule R120). -/
theorem runsOk_samples {samples : List Instr} (hsamples : ∀ j ∈ samples, isConstruction j = false) {s : State}
    (h : CanFill s) : RunsOk samples s := by
  induction samples generalizing s with
  | nil => exact ⟨s, [], hostRun_nil s, rfl, by simp, h⟩
  | cons j rest ih =>
    obtain ⟨hj, hrest⟩ := List.forall_mem_cons.1 hsamples
    obtain ⟨t, hanswered⟩ := answeredOk_sampling hj h
    exact .cons hanswered (ih hrest)

/-- Settles O55: reset leaves `FAULT = 0`, the construction mode READY, and every sample keeps it. -/
theorem bootOrderNeverErrs : Obligations.BootOrderNeverErrs := by
  intro s i samples hi hwf hlegal hsamples
  obtain ⟨t, hanswered⟩ := answeredOk_construction hi hwf hlegal (canTransact_takeReset s) rfl
  obtain ⟨u, rs, hrun, hlength, hok, hu⟩ := RunsOk.cons hanswered (runsOk_samples hsamples)
  refine ⟨u, rs, (hostRun_reset _ s).trans hrun, ?_, hok, hu.ready⟩
  rw [hlength, List.length_cons, Nat.add_comm]

end Sys2Proof.Machine
end
